-- ==== Sys2Proof/Word.lean ====
section
/-!
DEFINITION. The words of the block: bytes, byte strings, the 16-bit and 32-bit registers and the
binary64 pattern (spec 00_scope R8, R12).
-/

namespace Sys2Proof

/-- One received or transmitted byte (R8). -/
abbrev Byte := BitVec 8

/-- A byte string, first byte first (R12). -/
abbrev Text := List Byte

/-- A `u16`: the sequence id and `newest_id` (R12, R26). -/
abbrev Word16 := BitVec 16

/-- A `u32`: a statistics counter, a telemetry timestamp (R12, R37, R44). -/
abbrev Word32 := BitVec 32

/-- An `f64` as its binary64 bit pattern: bit 63 the sign, bits 62:52 the biased exponent, bits 51:0
the fraction (R12, reading "double precision" as binary64; log entry 14). -/
abbrev F64 := BitVec 64

end Sys2Proof
end

