-- ==== Sys2Proof/Config.lean ====
section
/-!
DEFINITION. The implementation parameters of spec 00_scope R6 and the constraints of R7.
`NUM_PARSE` and `FMT_FIXED` are functions in the spec; here each is its default with a finite table of
the operands on which this build answers otherwise (log entries 15 and 16), so that a configuration stays
plain data and a claim can quantify over it. Machine/Float.lean reads the tables.
-/

namespace Sys2Proof

/-- `CTR_OVERFLOW`: what a statistics counter does at its greatest value (R6, R39, item U6). -/
inductive CtrOverflow where
  /-- the default: modulo 2^32 (decision D11) -/
  | wrap
  /-- the alternative that conflict C6 names: the counter stays at its greatest value -/
  | saturate
  deriving DecidableEq, Repr

/-- The parameters of R6. Fixed for one block instance: no instruction writes them. -/
structure Config where
  /-- `START_MARKER` -/
  startMarker : Byte
  /-- `END_MARKER` -/
  endMarker : Byte
  /-- `MAX_PAYLOAD`, the greatest number of payload bytes of a frame -/
  maxPayload : Nat
  /-- `CMD_CAPACITY`, the number of slots of the Command Buffer -/
  cmdCapacity : Nat
  /-- `MAX_PARAMS`, the greatest number of parameters of a command -/
  maxParams : Nat
  /-- `DEFAULT_SPEED`, the parameter of SF, SB, SL, SR when the text carries none -/
  defaultSpeed : F64
  /-- `SEP_CODE`, the optional separator after the command code -/
  sepCode : Byte
  /-- `SEP_PARAM`, the separator between parameters -/
  sepParam : Byte
  /-- `CMD_ENC_MIN`, the smallest destination of the command encoder -/
  cmdEncMin : Nat
  /-- `TEL_ENC_MIN`, the smallest destination of the telemetry encoder -/
  telEncMin : Nat
  /-- `TX_BUF_SIZE`, the size of the session's transmit buffer (OPEN in the spec: log entry 2) -/
  txBufSize : Nat
  /-- `WS`, the set of whitespace bytes -/
  ws : List Byte
  /-- `NUM_PARSE`: the texts this build reads otherwise than the default of R138 and R139, each with its
  answer: no number, or a value and how many bytes it takes (items U3 and U10) -/
  numParseOther : List (Text × Option (F64 × Nat))
  /-- `FMT_FIXED`: the values, each with a number of fractional digits, that this build rounds to the
  other neighbouring multiple than the default of R193 (item U10) -/
  fmtFixedOther : List (F64 × Nat)
  /-- `CTR_OVERFLOW` -/
  ctrOverflow : CtrOverflow
  deriving DecidableEq, Repr

/-- `RX_BUF_SIZE = MAX_PAYLOAD + 1` (R7, decision D2): the last cell holds only a NUL. -/
def Config.rxBufSize (c : Config) : Nat := c.maxPayload + 1

/-- The constraints of R7. A configuration that breaks one is refused (item U14). -/
def Config.ok (c : Config) : Bool :=
  decide (c.startMarker ≠ c.endMarker) && decide (2 ≤ c.rxBufSize) && decide (1 ≤ c.cmdCapacity) &&
    decide (max c.telEncMin 22 ≤ c.txBufSize) && decide (2 ≤ c.maxParams)

/-- The "value taken" column of R6. `TX_BUF_SIZE` is OPEN there; 64 is the value the spec's vectors use
(DESIGN CHOICE, log entry 2). -/
def Config.reference : Config where
  startMarker := 0x53
  endMarker := 0x45
  maxPayload := 64
  cmdCapacity := 10
  maxParams := 10
  defaultSpeed := 0x406FE00000000000
  sepCode := 0x3A
  sepParam := 0x2C
  cmdEncMin := 8
  telEncMin := 32
  txBufSize := 64
  ws := [0x09, 0x0A, 0x0B, 0x0C, 0x0D, 0x20]
  numParseOther := []
  fmtFixedOther := []
  ctrOverflow := .wrap

end Sys2Proof
end

