-- ==== Sys2Proof/Syntax.lean ====
section
/-!
DEFINITION. The instructions: one constructor of `Instr` for each of the 38 rows of
spec/opcode_table.json, with the operands its rule gives it, and the records those operands are.
-/

namespace Sys2Proof

/-- The command codes (R27). -/
inductive Code where
  | mv | st | gt | sf | sb | sl | sr | unknown
  deriving DecidableEq, Repr

/-- The rover actions (R28). -/
inductive Action where
  | stop | moveForward | moveBackwards | moveLeft | moveRight | customMove | getTelemetry
  deriving DecidableEq, Repr

/-- The five response kinds (R78, R95). -/
inductive Kind where
  | ok | nack | errInvalidCommand | errInvalidParams | errBufferFull
  deriving DecidableEq, Repr

/-- A Decoded Command (R26). `params` holds exactly the meaningful cells, so `param_count` is its
length (R26 allows it; item U2). -/
structure Command where
  id : Word16
  code : Code
  action : Action
  params : List F64
  deriving DecidableEq, Repr

/-- A Telemetry Sample (R44). -/
structure Sample where
  battery : F64
  left : F64
  right : F64
  temp : F64
  timestamp : Word32
  deriving DecidableEq, Repr

/-- The instructions, in the table's order. -/
inductive Instr where
  -- format RXBYTE: the six transitions of the Frame Assembler, `b` the received byte
  | wsStart (b : Byte)
  | wsDrop (b : Byte)
  | rxRestart (b : Byte)
  | rxEnd (b : Byte)
  | rxData (b : Byte)
  | rxOverflow (b : Byte)
  -- format CMD: the command codes of a completed frame, `tail` the parameter substring (R80)
  | mv (tail : Text)
  | st (tail : Text)
  | gt (tail : Text)
  | sf (tail : Text)
  | sb (tail : Text)
  | sl (tail : Text)
  | sr (tail : Text)
  | unknownCode (payload : Text)
  -- formats TXRESP and TXTEL: the frame texts the block transmits
  | respOk
  | respNack
  | respErrInvalidCommand
  | respErrInvalidParams
  | respErrBufferFull
  | tel (sample : Sample)
  -- formats OP and OPENC: the operations of the command port
  | initSession
  | processAvailableInput
  | hasPendingCommand
  | getNextCommand
  | sendResponse (kind : Kind)
  | sendTelemetry (sample : Sample)
  | getStatistics
  | resetStatistics
  | cbInit
  | cbEnqueue (cmd : Command)
  | cbDequeue
  | cbIsEmpty
  | cbIsFull
  | cbCount
  | encodeCommand (cmd : Command) (size : Nat)
  | encodeTelemetry (sample : Sample) (size : Nat)
  | encodeResponse (kind : Kind)
  | parseResponse (text : Text)
  deriving DecidableEq, Repr

end Sys2Proof
end

