-- ==== Sys2Proof/Decode.lean ====
section
/-!
DEFINITION. The decoder and the encoder. The table has four ways to read a word (spec 30_encoding R70, R94), and the
number alone does not say which: the level-1 decode word of a received byte (R74), the level-2 pair of a
payload (R81), the frame text of a transmission (R78, R79), and the op_sel word of the command port
(R94). `Format` names them. Decoding is total and rejects by name. The bytes that carry operands behind
an op_sel word or the TEL prefix are the model's own (log entry 7).
-/

namespace Sys2Proof

/-! ### Text helpers (R17) -/

/-- `is_ws(b)`. -/
def isWs (c : Config) (b : Byte) : Bool := c.ws.contains b

/-- `s[skip_ws(s, 0) ..]`: the text without its leading whitespace. -/
def skipWs (c : Config) : Text → Text
  | [] => []
  | b :: s => if isWs c b then skipWs c s else b :: s

/-- `upper(b)`: an ASCII lower-case letter to its upper-case letter, every other byte unchanged. -/
def upper (b : Byte) : Byte := if 0x61 ≤ b ∧ b ≤ 0x7A then b - 0x20 else b

/-- `starts_with(s, 0, t)`. -/
def startsWith : (t s : Text) → Bool
  | [], _ => true
  | _ :: _, [] => false
  | a :: t, b :: s => a == b && startsWith t s

/-- What follows the prefix `t` in `s`, if `s` begins with it. -/
def stripPrefix : (t s : Text) → Option Text
  | [], s => some s
  | _ :: _, [] => none
  | a :: t, b :: s => if a = b then stripPrefix t s else none

/-- The bytes before the first NUL, or all of them: what a reader of a NUL-terminated string sees. -/
def untilNul : Text → Text
  | [] => []
  | b :: s => if b = 0x00 then [] else b :: untilNul s

/-! ### What a decoding answers -/

/-- Which words of the table a byte string is read by. -/
inductive Format where
  /-- format RXBYTE: the decode word of R74, then the received byte -/
  | rx
  /-- format CMD: a payload (R80) -/
  | cmd
  /-- formats TXRESP and TXTEL: a frame text (R78, R79) -/
  | tx
  /-- formats OP and OPENC: an op_sel word and its operands (R94) -/
  | op
  deriving DecidableEq, Repr

/-- Why a byte string is no instruction. -/
inductive DecodeError where
  /-- there is no word to read -/
  | emptyWord
  /-- an op word with a bit above the 6-bit word of R94, or a level-1 word above its 4 bits -/
  | wordTooWide
  /-- the byte class 0b11, which never occurs (R74) -/
  | noSuchByteClass
  /-- `enc_sel` 3: unused, no operation (R94) -/
  | unusedEncSel
  /-- the bytes end inside an operand -/
  | operandMissing
  /-- a response kind above 4 (R95) -/
  | noSuchKind
  /-- a code above 7 or an action above 6 (R27, R28) -/
  | noSuchCodeOrAction
  /-- a command with more than `MAX_PARAMS` parameters (R26) -/
  | tooManyParams
  /-- a text that is neither a response frame nor begins as a telemetry frame (R78, R79) -/
  | noSuchTransmitText
  deriving DecidableEq, Repr

/-- The answer of a decoder. -/
inductive Decoded where
  | instr (i : Instr)
  | reject (e : DecodeError)
  deriving DecidableEq, Repr

/-! ### Level 1: the received byte (R73, R74) -/

/-- The class bits `w[2:1]` of the decode word: `00` OTHER, `01` START, `10` END (R73). -/
def classBits (c : Config) (b : Byte) : BitVec 2 :=
  if b = c.startMarker then 0b01 else if b = c.endMarker then 0b10 else 0b00

/-- The row a level-1 decode word selects, by the matches and masks of R74. -/
def decodeRx (w : BitVec 4) (b : Byte) : Decoded :=
  if w &&& 0b1110 = 0b0010 then .instr (.wsStart b)
  else if w &&& 0b1010 = 0b0000 then .instr (.wsDrop b)
  else if w &&& 0b1110 = 0b1010 then .instr (.rxRestart b)
  else if w &&& 0b1110 = 0b1100 then .instr (.rxEnd b)
  else if w &&& 0b1111 = 0b1000 then .instr (.rxData b)
  else if w &&& 0b1111 = 0b1001 then .instr (.rxOverflow b)
  else .reject .noSuchByteClass

/-! ### Level 2: the payload (R80, R81, R121 to R124) -/

/-- The decode word of level 2: `c1` in bits 15:8, `c2` in bits 7:0 (R81). -/
def pairWord (c1 c2 : Byte) : Word16 := c1 ++ c2

/-- The code a raw pair of characters selects, by the matches and the mask of R81. -/
def lookupCode (c1 c2 : Byte) : Code :=
  let k := pairWord c1 c2 &&& 0xDFDF
  if k = 0x4D56 then .mv
  else if k = 0x5354 then .st
  else if k = 0x4754 then .gt
  else if k = 0x5346 then .sf
  else if k = 0x5342 then .sb
  else if k = 0x534C then .sl
  else if k = 0x5352 then .sr
  else .unknown

/-- Step 4 (R124): one `SEP_CODE` directly after the code is skipped. -/
def skipSepCode (c : Config) : Text → Text
  | [] => []
  | b :: s => if b = c.sepCode then s else b :: s

/-- Steps 1 to 4 (R121 to R124): the code of a payload and its parameter substring. A payload with
fewer than two characters after its whitespace has the code `unknown` (R122). -/
def splitPayload (c : Config) (p : Text) : Code × Text :=
  match skipWs c p with
  | c1 :: c2 :: rest => (lookupCode c1 c2, skipSepCode c rest)
  | _ => (.unknown, [])

/-- The command a payload carries. Every payload carries one; all but seven pairs are `unknown`. -/
def decodeCmd (c : Config) (p : Text) : Instr :=
  match splitPayload c p with
  | (.mv, tail) => .mv tail
  | (.st, tail) => .st tail
  | (.gt, tail) => .gt tail
  | (.sf, tail) => .sf tail
  | (.sb, tail) => .sb tail
  | (.sl, tail) => .sl tail
  | (.sr, tail) => .sr tail
  | (.unknown, _) => .unknownCode p

/-! ### Operand bytes behind a word (the model's own: log entry 7) -/

/-- `n` bytes of `v`, least significant first. -/
def leBytes : (n v : Nat) → Text
  | 0, _ => []
  | n + 1, v => BitVec.ofNat 8 v :: leBytes n (v / 256)

/-- Reads `n` bytes, least significant first. -/
def readLe : Nat → Text → Option (Nat × Text)
  | 0, s => some (0, s)
  | _ + 1, [] => none
  | n + 1, b :: s =>
    match readLe n s with
    | some (v, rest) => some (b.toNat + 256 * v, rest)
    | none => none

/-- Reads one `f64`. -/
def readF64 (s : Text) : Option (F64 × Text) :=
  match readLe 8 s with
  | some (v, rest) => some (BitVec.ofNat 64 v, rest)
  | none => none

/-- Reads `n` `f64` values. -/
def readF64s : Nat → Text → Option (List F64 × Text)
  | 0, s => some ([], s)
  | n + 1, s =>
    match readF64 s with
    | none => none
    | some (v, rest) =>
      match readF64s n rest with
      | some (vs, rest') => some (v :: vs, rest')
      | none => none

/-- The bytes of a list of `f64` values. -/
def f64Bytes : List F64 → Text
  | [] => []
  | v :: vs => leBytes 8 v.toNat ++ f64Bytes vs

/-- The offered number of a code (R27). -/
def Code.toNat : Code → Nat
  | .mv => 0 | .st => 1 | .gt => 2 | .sf => 3 | .sb => 4 | .sl => 5 | .sr => 6 | .unknown => 7

/-- The code of an offered number. -/
def codeOfNat : Nat → Option Code
  | 0 => some .mv | 1 => some .st | 2 => some .gt | 3 => some .sf | 4 => some .sb | 5 => some .sl
  | 6 => some .sr | 7 => some .unknown | _ => none

/-- The offered number of an action (R28). -/
def Action.toNat : Action → Nat
  | .stop => 0 | .moveForward => 1 | .moveBackwards => 2 | .moveLeft => 3 | .moveRight => 4
  | .customMove => 5 | .getTelemetry => 6

/-- The action of an offered number. -/
def actionOfNat : Nat → Option Action
  | 0 => some .stop | 1 => some .moveForward | 2 => some .moveBackwards | 3 => some .moveLeft
  | 4 => some .moveRight | 5 => some .customMove | 6 => some .getTelemetry | _ => none

/-- The offered number of a response kind (R95). -/
def Kind.toNat : Kind → Nat
  | .ok => 0 | .nack => 1 | .errInvalidCommand => 2 | .errInvalidParams => 3 | .errBufferFull => 4

/-- The response kind of an offered number. -/
def kindOfNat : Nat → Option Kind
  | 0 => some .ok | 1 => some .nack | 2 => some .errInvalidCommand | 3 => some .errInvalidParams
  | 4 => some .errBufferFull | _ => none

/-- The bytes of a Decoded Command: id, code, action, parameter count, parameters. -/
def commandBytes (m : Command) : Text :=
  leBytes 2 m.id.toNat ++ leBytes 1 m.code.toNat ++ leBytes 1 m.action.toNat ++
    leBytes 1 m.params.length ++ f64Bytes m.params

/-- The bytes of a Telemetry Sample, in the order of R44. -/
def sampleBytes (m : Sample) : Text :=
  f64Bytes [m.battery, m.left, m.right, m.temp] ++ leBytes 4 m.timestamp.toNat

/-- Reads a response kind and hands it to `k`. -/
def withKind (s : Text) (k : Kind → Decoded) : Decoded :=
  match s with
  | [] => .reject .operandMissing
  | b :: _ =>
    match kindOfNat b.toNat with
    | some kind => k kind
    | none => .reject .noSuchKind

/-- Reads a Telemetry Sample and hands it, with the bytes after it, to `k`. -/
def withSample (s : Text) (k : Sample → Text → Decoded) : Decoded :=
  match readF64s 4 s with
  | some ([battery, left, right, temp], rest) =>
    match readLe 4 rest with
    | some (t, rest') => k ⟨battery, left, right, temp, BitVec.ofNat 32 t⟩ rest'
    | none => .reject .operandMissing
  | _ => .reject .operandMissing

/-- Reads a Decoded Command and hands it, with the bytes after it, to `k`. -/
def withCommand (c : Config) (s : Text) (k : Command → Text → Decoded) : Decoded :=
  match s with
  | i0 :: i1 :: cd :: ac :: n :: rest =>
    match codeOfNat cd.toNat, actionOfNat ac.toNat with
    | some code, some action =>
      if c.maxParams < n.toNat then .reject .tooManyParams
      else
        match readF64s n.toNat rest with
        | some (params, rest') => k ⟨i1 ++ i0, code, action, params⟩ rest'
        | none => .reject .operandMissing
    | _, _ => .reject .noSuchCodeOrAction
  | _ => .reject .operandMissing

/-- Reads a destination size and hands it to `k`. -/
def withSize (s : Text) (k : Nat → Decoded) : Decoded :=
  match readLe 4 s with
  | some (n, _) => k n
  | none => .reject .operandMissing

/-! ### Transmit texts (R78, R79) -/

/-- The token of a response kind (second column of the table of R78). -/
def token : Kind → Text
  | .ok => [0x4F, 0x4B]
  | .nack => [0x4E, 0x41, 0x43, 0x4B]
  | .errInvalidCommand =>
    [0x45, 0x52, 0x52, 0x3A, 0x49, 0x4E, 0x56, 0x41, 0x4C, 0x49, 0x44, 0x5F, 0x43, 0x4F, 0x4D, 0x4D, 0x41, 0x4E, 0x44]
  | .errInvalidParams =>
    [0x45, 0x52, 0x52, 0x3A, 0x49, 0x4E, 0x56, 0x41, 0x4C, 0x49, 0x44, 0x5F, 0x50, 0x41, 0x52, 0x41, 0x4D, 0x53]
  | .errBufferFull =>
    [0x45, 0x52, 0x52, 0x3A, 0x42, 0x55, 0x46, 0x46, 0x45, 0x52, 0x5F, 0x46, 0x55, 0x4C, 0x4C]

/-- `encode_response(kind)` (R185): the frame text of a response. -/
def responseFrame (c : Config) (k : Kind) : Text := c.startMarker :: (token k ++ [c.endMarker])

/-- `"TEL:"`. -/
def telToken : Text := [0x54, 0x45, 0x4C, 0x3A]

/-- The instruction a transmit text stands for: a whole response frame, or the telemetry prefix with
the sample's bytes behind it. -/
def decodeTx (c : Config) (s : Text) : Decoded :=
  if startsWith (responseFrame c .ok) s then .instr .respOk
  else if startsWith (responseFrame c .nack) s then .instr .respNack
  else if startsWith (responseFrame c .errInvalidCommand) s then .instr .respErrInvalidCommand
  else if startsWith (responseFrame c .errInvalidParams) s then .instr .respErrInvalidParams
  else if startsWith (responseFrame c .errBufferFull) s then .instr .respErrBufferFull
  else
    match stripPrefix (c.startMarker :: telToken) s with
    | some rest => withSample rest fun m _ => .instr (.tel m)
    | none => .reject .noSuchTransmitText

/-! ### The command port (R94) -/

/-- The three encoders, told apart by `enc_sel`. -/
def decodeEnc (c : Config) (encSel : Nat) (s : Text) : Decoded :=
  match encSel with
  | 0 => withCommand c s fun m rest => withSize rest fun n => .instr (.encodeCommand m n)
  | 1 => withSample s fun m rest => withSize rest fun n => .instr (.encodeTelemetry m n)
  | 2 => withKind s fun k => .instr (.encodeResponse k)
  | _ => .reject .unusedEncSel

/-- An operation: bits 3:0 of the word are `op_sel`, bits 5:4 are `enc_sel`, read only when `op_sel` is
0xE (the OP rows' mask is 0xF). -/
def decodeOp (c : Config) (s : Text) : Decoded :=
  match s with
  | [] => .reject .emptyWord
  | w :: rest =>
    if 64 ≤ w.toNat then .reject .wordTooWide
    else
      match w.toNat % 16 with
      | 0x0 => .instr .initSession
      | 0x1 => .instr .processAvailableInput
      | 0x2 => .instr .hasPendingCommand
      | 0x3 => .instr .getNextCommand
      | 0x4 => withKind rest fun k => .instr (.sendResponse k)
      | 0x5 => withSample rest fun m _ => .instr (.sendTelemetry m)
      | 0x6 => .instr .getStatistics
      | 0x7 => .instr .resetStatistics
      | 0x8 => .instr .cbInit
      | 0x9 => withCommand c rest fun m _ => .instr (.cbEnqueue m)
      | 0xA => .instr .cbDequeue
      | 0xB => .instr .cbIsEmpty
      | 0xC => .instr .cbIsFull
      | 0xD => .instr .cbCount
      | 0xE => decodeEnc c (w.toNat / 16) rest
      | _ => .instr (.parseResponse (untilNul rest))

/-! ### The whole decoder -/

/-- The instruction a byte string stands for, read by `f`. Total; whatever stands behind the
instruction's last operand is ignored. -/
def decode (c : Config) (f : Format) (s : Text) : Decoded :=
  match f with
  | .rx =>
    match s with
    | w :: b :: _ => if 16 ≤ w.toNat then .reject .wordTooWide else decodeRx (BitVec.ofNat 4 w.toNat) b
    | _ => .reject .emptyWord
  | .cmd => .instr (decodeCmd c (untilNul s))
  | .tx => decodeTx c s
  | .op => decodeOp c s

/-! ### The encoder -/

/-- Which words an instruction's encoding is read by. -/
def formatOf : Instr → Format
  | .wsStart _ | .wsDrop _ | .rxRestart _ | .rxEnd _ | .rxData _ | .rxOverflow _ => .rx
  | .mv _ | .st _ | .gt _ | .sf _ | .sb _ | .sl _ | .sr _ | .unknownCode _ => .cmd
  | .respOk | .respNack | .respErrInvalidCommand | .respErrInvalidParams | .respErrBufferFull => .tx
  | .tel _ => .tx
  | .initSession | .processAvailableInput | .hasPendingCommand | .getNextCommand => .op
  | .sendResponse _ | .sendTelemetry _ | .getStatistics | .resetStatistics => .op
  | .cbInit | .cbEnqueue _ | .cbDequeue | .cbIsEmpty | .cbIsFull | .cbCount => .op
  | .encodeCommand _ _ | .encodeTelemetry _ _ | .encodeResponse _ | .parseResponse _ => .op

/-- The bytes of an instruction. A command is written with its separator, so that a tail that itself
begins with the separator is kept (R124). -/
def encode (c : Config) : Instr → Text
  | .wsStart b => [0x02, b]
  | .wsDrop b => [0x00, b]
  | .rxRestart b => [0x0A, b]
  | .rxEnd b => [0x0C, b]
  | .rxData b => [0x08, b]
  | .rxOverflow b => [0x09, b]
  | .mv tail => 0x4D :: 0x56 :: c.sepCode :: tail
  | .st tail => 0x53 :: 0x54 :: c.sepCode :: tail
  | .gt tail => 0x47 :: 0x54 :: c.sepCode :: tail
  | .sf tail => 0x53 :: 0x46 :: c.sepCode :: tail
  | .sb tail => 0x53 :: 0x42 :: c.sepCode :: tail
  | .sl tail => 0x53 :: 0x4C :: c.sepCode :: tail
  | .sr tail => 0x53 :: 0x52 :: c.sepCode :: tail
  | .unknownCode payload => payload
  | .respOk => responseFrame c .ok
  | .respNack => responseFrame c .nack
  | .respErrInvalidCommand => responseFrame c .errInvalidCommand
  | .respErrInvalidParams => responseFrame c .errInvalidParams
  | .respErrBufferFull => responseFrame c .errBufferFull
  | .tel m => c.startMarker :: (telToken ++ sampleBytes m)
  | .initSession => [0x00]
  | .processAvailableInput => [0x01]
  | .hasPendingCommand => [0x02]
  | .getNextCommand => [0x03]
  | .sendResponse k => [0x04, BitVec.ofNat 8 k.toNat]
  | .sendTelemetry m => 0x05 :: sampleBytes m
  | .getStatistics => [0x06]
  | .resetStatistics => [0x07]
  | .cbInit => [0x08]
  | .cbEnqueue m => 0x09 :: commandBytes m
  | .cbDequeue => [0x0A]
  | .cbIsEmpty => [0x0B]
  | .cbIsFull => [0x0C]
  | .cbCount => [0x0D]
  | .encodeCommand m n => 0x0E :: (commandBytes m ++ leBytes 4 n)
  | .encodeTelemetry m n => 0x1E :: (sampleBytes m ++ leBytes 4 n)
  | .encodeResponse k => [0x2E, BitVec.ofNat 8 k.toNat]
  | .parseResponse text => 0x0F :: (text ++ [0x00])

/-! ### The table's words (spec/opcode_table.json) -/

/-- The `match` of an instruction's row, or the number of its `encoding` (default markers). -/
def rowMatch : Instr → Nat
  | .wsStart _ => 0b0010
  | .wsDrop _ => 0b0000
  | .rxRestart _ => 0b1010
  | .rxEnd _ => 0b1100
  | .rxData _ => 0b1000
  | .rxOverflow _ => 0b1001
  | .mv _ => 0x4D56
  | .st _ => 0x5354
  | .gt _ => 0x4754
  | .sf _ => 0x5346
  | .sb _ => 0x5342
  | .sl _ => 0x534C
  | .sr _ => 0x5352
  | .unknownCode _ => 0x0000
  | .respOk => 0x534F4B45
  | .respNack => 0x534E41434B45
  | .respErrInvalidCommand => 0x534552523A494E56414C49445F434F4D4D414E4445
  | .respErrInvalidParams => 0x534552523A494E56414C49445F504152414D5345
  | .respErrBufferFull => 0x534552523A4255464645525F46554C4C45
  | .tel _ => 0x5354454C3A
  | .initSession => 0x0
  | .processAvailableInput => 0x1
  | .hasPendingCommand => 0x2
  | .getNextCommand => 0x3
  | .sendResponse _ => 0x4
  | .sendTelemetry _ => 0x5
  | .getStatistics => 0x6
  | .resetStatistics => 0x7
  | .cbInit => 0x8
  | .cbEnqueue _ => 0x9
  | .cbDequeue => 0xA
  | .cbIsEmpty => 0xB
  | .cbIsFull => 0xC
  | .cbCount => 0xD
  | .encodeCommand _ _ => 0x0E
  | .encodeTelemetry _ _ => 0x1E
  | .encodeResponse _ => 0x2E
  | .parseResponse _ => 0xF

/-- The `mask` of an instruction's row; for a whole frame text, ones over its length. -/
def rowMask : Instr → Nat
  | .wsStart _ => 0b1110
  | .wsDrop _ => 0b1010
  | .rxRestart _ => 0b1110
  | .rxEnd _ => 0b1110
  | .rxData _ => 0b1111
  | .rxOverflow _ => 0b1111
  | .mv _ | .st _ | .gt _ | .sf _ | .sb _ | .sl _ | .sr _ => 0xDFDF
  | .unknownCode _ => 0x0000
  | .respOk => 2 ^ 32 - 1
  | .respNack => 2 ^ 48 - 1
  | .respErrInvalidCommand => 2 ^ 168 - 1
  | .respErrInvalidParams => 2 ^ 160 - 1
  | .respErrBufferFull => 2 ^ 136 - 1
  | .tel _ => 0xFFFFFFFFFF
  | .initSession | .processAvailableInput | .hasPendingCommand | .getNextCommand => 0xF
  | .sendResponse _ | .sendTelemetry _ | .getStatistics | .resetStatistics => 0xF
  | .cbInit | .cbEnqueue _ | .cbDequeue | .cbIsEmpty | .cbIsFull | .cbCount => 0xF
  | .encodeCommand _ _ | .encodeTelemetry _ _ | .encodeResponse _ => 0x3F
  | .parseResponse _ => 0xF

/-- How many bytes of an instruction's encoding the row's word covers. -/
def rowBytes : Instr → Nat
  | .wsStart _ | .wsDrop _ | .rxRestart _ | .rxEnd _ | .rxData _ | .rxOverflow _ => 1
  | .mv _ | .st _ | .gt _ | .sf _ | .sb _ | .sl _ | .sr _ | .unknownCode _ => 2
  | .respOk => 4
  | .respNack => 6
  | .respErrInvalidCommand => 21
  | .respErrInvalidParams => 20
  | .respErrBufferFull => 17
  | .tel _ => 5
  | .initSession | .processAvailableInput | .hasPendingCommand | .getNextCommand => 1
  | .sendResponse _ | .sendTelemetry _ | .getStatistics | .resetStatistics => 1
  | .cbInit | .cbEnqueue _ | .cbDequeue | .cbIsEmpty | .cbIsFull | .cbCount => 1
  | .encodeCommand _ _ | .encodeTelemetry _ _ | .encodeResponse _ | .parseResponse _ => 1

/-- The number a byte string is, first byte most significant ("first byte leftmost"). -/
def wordOf (s : Text) : Nat := s.foldl (fun n b => 256 * n + b.toNat) 0

/-- The `n` low bytes of `v`, most significant first. -/
def beBytes : (n v : Nat) → Text
  | 0, _ => []
  | n + 1, v => BitVec.ofNat 8 (v / 256 ^ n) :: beBytes n v

/-- The words of the table are told apart by their lengths alone: a word of one byte is read as an
operation of the command port, of two bytes as a payload's pair, of more as a transmit text. The level-1
decode words have one byte as well, and their numbers are op_sel numbers too: they are not read here
(log entry 8). -/
def formatOfBits (nbits : Nat) : Format :=
  if nbits ≤ 8 then .op else if nbits ≤ 16 then .cmd else .tx

/-- The bytes of a table word of `nbits` bits with operands of zeros behind it. -/
def tableBytes (nbits w : Nat) : Text := beBytes ((nbits + 7) / 8) w ++ List.replicate 48 0x00

/-- The instruction of a table word with operands of zeros, under the reference parameters. -/
def decodeTableWord (nbits w : Nat) : Option Instr :=
  match decode Config.reference (formatOfBits nbits) (tableBytes nbits w) with
  | .instr i => some i
  | .reject _ => none

end Sys2Proof
end

