-- ==== Sys2Proof/Machine/State.lean ====
section
/-!
DEFINITION. The state of the block (spec 10_state R20), the requests and outputs around it, the
reasons a step can stop, and the state after reset.
-/

namespace Sys2Proof.Machine

/-- The Frame Assembler's state register (R21). -/
inductive AsmState where
  | waitingStart
  | receiving
  /-- transient: never the value between two events (R23) -/
  | frameReady
  deriving DecidableEq, Repr

/-- What `parse_response` answers: a response kind or `RESP_TELEMETRY` (R191). -/
inductive Parsed where
  | response (k : Kind)
  | telemetry
  deriving DecidableEq, Repr

/-- A value an operation returns to the agent that raised it (R16). -/
inductive Result where
  /-- `has_pending_command`, `cb_is_empty`, `cb_is_full`; `evicted` of `cb_enqueue`; success of
  `send_telemetry` -/
  | flag (b : Bool)
  /-- `cb_count`, and the count of newly queued commands of `process_available_input` -/
  | number (n : Nat)
  /-- `get_next_command`, `cb_dequeue`; none is `Empty` -/
  | command (m : Option Command)
  /-- `get_statistics`: frames received, frames sent, parse errors, receive overflows (R171) -/
  | statistics (received sent errors overflows : Word32)
  /-- an encoder's text; none is the failure `EncodeTooSmall` or an unencodable code (R187) -/
  | text (t : Option Text)
  /-- `parse_response` -/
  | parsed (p : Parsed)
  deriving DecidableEq, Repr

/-- One item of the block's observable output, in event order (R16, R236). -/
inductive Output where
  /-- a string handed to the byte sink -/
  | tx (t : Text)
  /-- a returned value -/
  | ret (r : Result)
  deriving DecidableEq, Repr

/-- One input of the block, not yet taken (R10, R11; log entry 5). -/
inductive Request where
  /-- the receive event of the interrupt style (R174) -/
  | rxByte (b : Byte)
  /-- an operation at the command port: its op_sel word and operand bytes (R94) -/
  | op (s : Text)
  /-- the consumer's event `send_response` or `send_telemetry` (R169, R170), named by the frame text of
  the table that it sends (log entry 10) -/
  | tx (s : Text)
  /-- the link delivers bytes to the byte source (R46, R166); no event of the block -/
  | arrive (s : Text)
  deriving DecidableEq, Repr

/-- Why the machine faults. The block itself has no faults (R200); these are accesses outside the
spaces of R42, which only states that no run reaches can ask for (R53). -/
inductive Fault where
  /-- raised by RX_END when `rx_index` is outside RXBUF. Safe: the model stops. -/
  | rxBufIndex (a : Nat)
  /-- raised by a dequeue when `head` is outside RING. Safe: the model stops. -/
  | ringIndex (a : Nat)
  deriving DecidableEq, Repr

/-- Why the machine refuses an event. -/
inductive Refusal where
  /-- raised by exec's arm of an instruction that has no meaning yet. Safe: the model stops. -/
  | notModelled (mnemonic : String)
  /-- raised by every event under a configuration that breaks a constraint of R7 (item U14). Safe. -/
  | badConfig
  /-- raised by every event but `init_session` before the first `init_session` (R176, item U5). Safe. -/
  | notInitialised
  /-- raised by a row of format RXBYTE whose condition does not hold: the byte selects another row
  (R74, R106; log entry 11). Safe: no step runs such a row. -/
  | notSelected
  /-- raised by the fetch when the bytes at a port are no instruction. Safe. -/
  | undecodable (e : DecodeError)
  /-- raised by an encoder asked to print an infinity or a NaN (R193, item U9). Safe. -/
  | nonFiniteText
  deriving DecidableEq, Repr

/-- The state: the Session Context of R20, `initialised` of R176, and the model's own fields. -/
structure State where
  /-- the build-time parameters (model's own: log entry 1); no step writes them -/
  cfg : Config
  /-- `init_session` has run (R176) -/
  initialised : Bool
  /-- the state register (R21) -/
  state : AsmState
  /-- the receive index (R22) -/
  rxIndex : Nat
  /-- RXBUF, the receive buffer (R24): sparse, an unlisted cell reads as 0x00 -/
  rxBuf : List Host.Cell
  /-- RING, the slots of the Command Buffer (R31): sparse, an unlisted slot reads as the blank record -/
  ring : List (Nat × Command)
  /-- index of the oldest queued command (R31) -/
  head : Nat
  /-- number of queued commands (R31) -/
  count : Nat
  /-- the id counter (R32) -/
  newestId : Word16
  /-- statistics (R37) -/
  framesReceived : Word32
  framesSent : Word32
  parseErrors : Word32
  rxOverflows : Word32
  /-- the byte source's pending bytes (model's own: R46, R166, log entry 5) -/
  source : Text
  /-- the events to come, in their total order (model's own: R61, log entry 5) -/
  inbox : List Request
  /-- the observable output so far (model's own: R16, R236, log entry 6) -/
  output : List Output
  deriving DecidableEq, Repr

/-- What a slot of RING that nothing has written reads as: no rule reads one (R33; DESIGN CHOICE, log
entry 3). -/
def blankCommand : Command := ⟨0, .unknown, .stop, []⟩

/-- `CleanStart` (R231): the state right after `init_session`, under the reference parameters, with
nothing pending and nothing sent. -/
def State.reset : State where
  cfg := Config.reference
  initialised := true
  state := .waitingStart
  rxIndex := 0
  rxBuf := []
  ring := []
  head := 0
  count := 0
  newestId := 0
  framesReceived := 0
  framesSent := 0
  parseErrors := 0
  rxOverflows := 0
  source := []
  inbox := []
  output := []

end Sys2Proof.Machine
end

