-- ==== Sys2Proof/Machine/Flags.lean ====
section
/-!
DEFINITION. The status outputs of spec 10_state R34 and the counters' arithmetic (R38, R39).
-/

namespace Sys2Proof.Machine

/-- `is_empty` (R34, R155). -/
def State.isEmpty (s : State) : Bool := decide (s.count = 0)

/-- `is_full` (R34, R156). -/
def State.isFull (s : State) : Bool := decide (s.count = s.cfg.cmdCapacity)

/-- `has_pending_command` (R34, R167). -/
def State.hasPending (s : State) : Bool := !s.isEmpty

/-- A statistics counter incremented (R38), with `CTR_OVERFLOW` deciding at the greatest value (R39). -/
def bump (c : Config) (n : Word32) : Word32 :=
  match c.ctrOverflow with
  | .wrap => n + 1
  | .saturate => if n = 0xFFFFFFFF then n else n + 1

/-- The successor of an id: 65535 goes to 1, so 0 is reached by no successor (R152, R158). -/
def succId (n : Word16) : Word16 := if n = 0xFFFF then 1 else n + 1

end Sys2Proof.Machine
end

