-- ==== Sys2Proof/Machine/Float.lean ====
section
/-!
DEFINITION. binary64 as the block uses it: the comparisons of spec 41 R134 and R135, the value of a
decimal text (R138, R139) and the fixed-point text of a value (44 R193, R194). All of it exact integer
arithmetic. `NUM_PARSE` and `FMT_FIXED` are the spec's defaults but where the configuration's tables say
otherwise (log entries 15 and 16).
-/

namespace Sys2Proof.Machine

/-! ### Fields and comparisons -/

/-- The value is negative or `-0.0`, or a NaN with its sign bit set. -/
def f64Neg (v : F64) : Bool := v.msb

/-- The exponent and fraction fields as one number; it orders the magnitudes. -/
def f64Mag (v : F64) : Nat := v.toNat % 2 ^ 63

/-- The magnitude field of an infinity. -/
def infMag : Nat := 0x7FF * 2 ^ 52

def f64IsNan (v : F64) : Bool := decide (infMag < f64Mag v)

def f64IsFinite (v : F64) : Bool := decide (f64Mag v < infMag)

/-- A signed key that orders all values but the NaNs; both zeros have the key 0. -/
def f64Key (v : F64) : Int := if f64Neg v then -(f64Mag v : Int) else (f64Mag v : Int)

/-- The `f64` comparison `a = b`: false if either is a NaN (R135). -/
def f64Eq (a b : F64) : Bool := !f64IsNan a && !f64IsNan b && decide (f64Key a = f64Key b)

/-- The `f64` comparison `a < b`: false if either is a NaN (R135). -/
def f64Lt (a b : F64) : Bool := !f64IsNan a && !f64IsNan b && decide (f64Key a < f64Key b)

/-- `0.0`. -/
def f64Zero : F64 := 0

/-! ### From a number to the nearest value -/

/-- A value from its sign and its magnitude field. -/
def f64Of (neg : Bool) (mag : Nat) : F64 := BitVec.ofNat 64 ((if neg then 2 ^ 63 else 0) + mag)

/-- `num / den` rounded to the nearest natural number, a tie to the even one; `0 < den`. -/
def roundHalfEven (num den : Nat) : Nat :=
  let q := num / den
  let r := num % den
  if 2 * r < den then q
  else if den < 2 * r then q + 1
  else if q % 2 = 0 then q else q + 1

/-- The exponent of the leading bit of `num / den`, both positive: the `k` with
`2 ^ k ≤ num / den < 2 ^ (k + 1)`. -/
def ratExponent (num den : Nat) : Int :=
  let k : Int := (num.log2 : Int) - (den.log2 : Int)
  -- 2 ^ k ≤ num / den, with the power on the side where its exponent is not negative
  if den * 2 ^ k.toNat ≤ num * 2 ^ (-k).toNat then k else k - 1

/-- The magnitude field of the binary64 value nearest to `num / den`, both positive, ties to the even
significand; the field of infinity if the value is beyond the finite ones (R139). The quotient is
scaled to a significand of 53 bits, or to the subnormal spacing `2 ^ -1074` when that is coarser. -/
def roundRat (num den : Nat) : Nat :=
  let shift : Int := min (52 - ratExponent num den) 1074
  let q := roundHalfEven (num * 2 ^ shift.toNat) (den * 2 ^ (-shift).toNat)
  min infMag ((1074 - shift).toNat * 2 ^ 52 + q)

/-- The value of `digits * 10 ^ exp` with a sign (R139). The two tests on the exponent answer what
`roundRat` would, without forming the power: at or above `2 ^ 1024` is infinity, below `2 ^ -1075` is
zero. -/
def f64OfDecimal (neg : Bool) (digits : Nat) (exp : Int) : F64 :=
  if digits = 0 then f64Of neg 0
  else if 0 ≤ exp then
    if 1024 ≤ (digits.log2 : Int) + 3 * exp then f64Of neg infMag
    else f64Of neg (roundRat (digits * 10 ^ exp.toNat) 1)
  else
    if (digits.log2 : Int) + 1076 ≤ 3 * (-exp) then f64Of neg 0
    else f64Of neg (roundRat digits (10 ^ (-exp).toNat))

/-! ### The text of a number -/

/-- The ASCII digit of `n`, `n < 10` (R71). -/
def digitByte (n : Nat) : Byte := BitVec.ofNat 8 (0x30 + n)

/-- The decimal digits of `n` in front of `acc`; `fuel` bounds their number. -/
def decDigits : (fuel n : Nat) → Text → Text
  | 0, _, acc => acc
  | fuel + 1, n, acc =>
    if n < 10 then digitByte n :: acc else decDigits fuel (n / 10) (digitByte (n % 10) :: acc)

/-- The decimal digits of `n`, most significant first, no leading zeros, `"0"` for zero. -/
def natText (n : Nat) : Text := decDigits (n.log2 + 1) n []

/-- `FMT_UINT` (R194). -/
def fmtUint (n : Word32) : Text := natText n.toNat

/-- The `d` low decimal digits of `n`, leading zeros kept. -/
def fracText : (d n : Nat) → Text
  | 0, _ => []
  | d + 1, n => digitByte (n / 10 ^ d % 10) :: fracText d n

/-- The significand of a magnitude field: the value is `significand * 2 ^ exponent2`. -/
def significand (mag : Nat) : Nat :=
  if mag / 2 ^ 52 = 0 then mag % 2 ^ 52 else 2 ^ 52 + mag % 2 ^ 52

/-- The binary exponent of a magnitude field. -/
def exponent2 (mag : Nat) : Int :=
  if mag / 2 ^ 52 = 0 then -1074 else (mag / 2 ^ 52 : Nat) - 1075

/-- The exact value of a magnitude field times `10 ^ d`, as a numerator over a denominator. -/
def scaledExact (mag d : Nat) : Nat × Nat :=
  (significand mag * 10 ^ d * 2 ^ (exponent2 mag).toNat, 2 ^ (-exponent2 mag).toNat)

/-- The multiple of `10 ^ -d` that `FMT_FIXED` prints for a magnitude, counted in such multiples: the
nearest, a tie to the even one (R193); in a build that rounds the value `v` otherwise, the other
neighbour of a value that is no multiple (item U10). -/
def fixedMultiple (c : Config) (v : F64) (d : Nat) : Nat :=
  let (num, den) := scaledExact (f64Mag v) d
  if (v, d) ∈ c.fmtFixedOther ∧ num % den ≠ 0 then 2 * (num / den) + 1 - roundHalfEven num den
  else roundHalfEven num den

/-- `FMT_FIXED(v, d)` for a finite `v` (R193): a sign if the value is negative or `-0.0`, the integer
part, a point, exactly `d` digits. There is no text for an infinity or a NaN (item U9). -/
def fmtFixed (c : Config) (v : F64) (d : Nat) : Option Text :=
  if f64IsFinite v then
    let n := fixedMultiple c v d
    let text := natText (n / 10 ^ d) ++ 0x2E :: fracText d n
    some (if f64Neg v then 0x2D :: text else text)
  else none

/-! ### `NUM_PARSE` (R138) -/

/-- The value of an ASCII digit. -/
def digitVal (b : Byte) : Option Nat :=
  if 0x30 ≤ b.toNat ∧ b.toNat ≤ 0x39 then some (b.toNat - 0x30) else none

/-- Reads `digit*`: the number that the digits continue `acc` to, how many there were, and the rest. -/
def scanDigits (acc n : Nat) : Text → Nat × Nat × Text
  | [] => (acc, n, [])
  | b :: s =>
    match digitVal b with
    | some d => scanDigits (10 * acc + d) (n + 1) s
    | none => (acc, n, b :: s)

/-- Reads `sign?`. -/
def scanSign : Text → Bool × Text
  | [] => (false, [])
  | b :: s => if b = 0x2D then (true, s) else if b = 0x2B then (false, s) else (false, b :: s)

/-- Reads `mantissa := digit+ ( '.' digit* )? | '.' digit+`: all its digits as one number, how many of
them stand after the point, and the rest. -/
def scanMantissa (s : Text) : Option (Nat × Nat × Text) :=
  let (whole, n, rest) := scanDigits 0 0 s
  match rest with
  | [] => if n = 0 then none else some (whole, 0, rest)
  | b :: after =>
    if b = 0x2E then
      let (all, m, rest') := scanDigits whole 0 after
      if n = 0 ∧ m = 0 then none else some (all, m, rest')
    else if n = 0 then none
    else some (whole, 0, rest)

/-- Reads `exponent?`, `exponent := ( 'e' | 'E' ) sign? digit+`: it is taken only with a digit. -/
def scanExponent (s : Text) : Int × Text :=
  match s with
  | [] => (0, [])
  | b :: after =>
    if b = 0x65 ∨ b = 0x45 then
      let (neg, digits) := scanSign after
      let (e, n, rest) := scanDigits 0 0 digits
      if n = 0 then (0, s) else (if neg then -(e : Int) else (e : Int), rest)
    else (0, s)

/-- The default `NUM_PARSE` at the start of `s` (R138, R139): the value of the longest prefix that is a
number, and the rest. -/
def numParseDefault (s : Text) : Option (F64 × Text) :=
  let (neg, s1) := scanSign s
  match scanMantissa s1 with
  | none => none
  | some (digits, frac, s2) =>
    let (e, s3) := scanExponent s2
    some (f64OfDecimal neg digits (e - (frac : Int)), s3)

/-- `NUM_PARSE` at the start of `s`: what the build's table says of `s`, with at least one byte consumed
(R136), and the default for a text the table does not name. -/
def numParse (c : Config) (s : Text) : Option (F64 × Text) :=
  match c.numParseOther.lookup s with
  | some answer => answer.map fun r => (r.1, s.drop (max r.2 1))
  | none => numParseDefault s

end Sys2Proof.Machine
end

