-- ==== Sys2Proof/Machine/Operands.lean ====
section
/-!
DEFINITION. The operand forms: the parameters of a command text (spec 41 R120 to R143) and the texts
of the transmit level (44 R187 to R191). Pure functions of the parameters of R6.
-/

namespace Sys2Proof.Machine

/-! ### The tokenizer (R136, R137) -/

/-- `tokenize(s, max)`; none is `ScanFail`. -/
def tokenize (c : Config) : (max : Nat) → Text → Option (List F64)
  | 0, _ => some []
  | max + 1, s =>
    match skipWs c s with
    | [] => some []
    | b :: s1 =>
      match numParse c (b :: s1) with
      | none => none
      | some (v, s2) =>
        match skipWs c s2 with
        | [] => some [v]
        | b' :: s3 =>
          if b' = c.sepParam then
            match tokenize c max s3 with
            | some vs => some (v :: vs)
            | none => none
          else some [v]

/-! ### The classifier (R134) -/

/-- `classify(l, r)`. -/
def classify (l r : F64) : Action :=
  if f64Eq l f64Zero && f64Eq r f64Zero then .stop
  else if f64Lt f64Zero l && f64Lt f64Zero r then
    if f64Eq l r then .moveForward else .customMove
  else if f64Lt l f64Zero && f64Lt r f64Zero then
    if f64Eq l r then .moveBackwards else .customMove
  else if f64Lt r l then .moveRight
  else .moveLeft

/-! ### The decoder (R120, R125 to R133, R142) -/

/-- What `decode` answers (R120). -/
inductive Payload where
  | ok (m : Command)
  | unrecognizedCommand
  | invalidParams
  deriving DecidableEq, Repr

/-- `ST` and `GT` (R126, R127): the tail is not examined. -/
def decodeBare (code : Code) (action : Action) : Payload := .ok ⟨0, code, action, []⟩

/-- `MV` (R128). -/
def decodeMove (c : Config) (tail : Text) : Payload :=
  match tokenize c c.maxParams tail with
  | none => .invalidParams
  | some t =>
    match t with
    | l :: r :: _ => .ok ⟨0, .mv, classify l r, t⟩
    | _ => .invalidParams

/-- `SF`, `SB`, `SL`, `SR` (R129 to R132): one number, or `DEFAULT_SPEED` for none. -/
def decodeSpeed (c : Config) (code : Code) (action : Action) (tail : Text) : Payload :=
  match tokenize c 1 tail with
  | none => .invalidParams
  | some t => .ok ⟨0, code, action, [t.headD c.defaultSpeed]⟩

/-- `decode(p)` as a whole (R142). -/
def decodePayload (c : Config) (p : Text) : Payload :=
  match splitPayload c p with
  | (.mv, tail) => decodeMove c tail
  | (.st, _) => decodeBare .st .stop
  | (.gt, _) => decodeBare .gt .getTelemetry
  | (.sf, tail) => decodeSpeed c .sf .moveForward tail
  | (.sb, tail) => decodeSpeed c .sb .moveBackwards tail
  | (.sl, tail) => decodeSpeed c .sl .moveLeft tail
  | (.sr, tail) => decodeSpeed c .sr .moveRight tail
  | (.unknown, _) => .unrecognizedCommand

/-! ### The encoders (R187, R189) -/

/-- What an encoder answers. -/
inductive Encoded where
  /-- the text, and it fits -/
  | text (t : Text)
  /-- no output produced: `EncodeTooSmall` (R206), or a code that has no letters (R187) -/
  | noOutput
  /-- a value to be printed is an infinity or a NaN: the spec gives no text (R193, item U9) -/
  | nonFinite
  deriving DecidableEq, Repr

/-- The two upper-case letters of a code (R81). -/
def letters : Code → Option Text
  | .mv => some [0x4D, 0x56]
  | .st => some [0x53, 0x54]
  | .gt => some [0x47, 0x54]
  | .sf => some [0x53, 0x46]
  | .sb => some [0x53, 0x42]
  | .sl => some [0x53, 0x4C]
  | .sr => some [0x53, 0x52]
  | .unknown => none

/-- The comma-joined parameters of a command text, one fractional digit each; none if one of them is
not finite. -/
def paramsText (c : Config) : List F64 → Option Text
  | [] => some []
  | v :: vs =>
    match fmtFixed c v 1 with
    | none => none
    | some t =>
      match vs with
      | [] => some t
      | _ :: _ =>
        match paramsText c vs with
        | none => none
        | some ts => some (t ++ c.sepParam :: ts)

/-- A text that fits with one byte for a terminating NUL (decision D18). -/
def fitted (t : Text) (size : Nat) : Encoded := if size < t.length + 1 then .noOutput else .text t

/-- `encode_command(cmd, size)` (R187). -/
def encodeCommandText (c : Config) (m : Command) (size : Nat) : Encoded :=
  if size < c.cmdEncMin then .noOutput
  else
    match letters m.code with
    | none => .noOutput
    | some code =>
      match m.params with
      | [] => fitted (c.startMarker :: (code ++ [c.endMarker])) size
      | v :: vs =>
        match paramsText c (v :: vs) with
        | none => .nonFinite
        | some ps => fitted (c.startMarker :: (code ++ c.sepCode :: (ps ++ [c.endMarker]))) size

/-- The five fields of a telemetry text, joined by commas (R79, R189). -/
def telemetryFields (c : Config) (m : Sample) : Option Text :=
  match fmtFixed c m.battery 2, fmtFixed c m.left 1, fmtFixed c m.right 1, fmtFixed c m.temp 1 with
  | some b, some l, some r, some t =>
    some (b ++ 0x2C :: (l ++ 0x2C :: (r ++ 0x2C :: (t ++ 0x2C :: fmtUint m.timestamp))))
  | _, _, _, _ => none

/-- `encode_telemetry(sample, size)` (R189). -/
def encodeTelemetryText (c : Config) (m : Sample) (size : Nat) : Encoded :=
  if size < c.telEncMin then .noOutput
  else
    match telemetryFields c m with
    | none => .nonFinite
    | some fields => fitted (c.startMarker :: (telToken ++ (fields ++ [c.endMarker]))) size

/-! ### The response parser (R191) -/

/-- At most one start marker is skipped (decision D19). -/
def skipStart (c : Config) : Text → Text
  | [] => []
  | b :: s => if b = c.startMarker then s else b :: s

/-- `parse_response(text)`. -/
def parseResponseText (c : Config) (s : Text) : Parsed :=
  let t := skipStart c (skipWs c s)
  if startsWith (token .ok) t then .response .ok
  else if startsWith (token .nack) t then .response .nack
  else if startsWith (token .errInvalidCommand) t then .response .errInvalidCommand
  else if startsWith (token .errInvalidParams) t then .response .errInvalidParams
  else if startsWith (token .errBufferFull) t then .response .errBufferFull
  else if startsWith telToken t then .telemetry
  else .response .nack

end Sys2Proof.Machine
end

