-- ==== Sys2Proof/Machine/Ops.lean ====
section
/-!
DEFINITION. The shared operations: the two spaces of spec 10_state R42, transmitting and returning
(00_scope R16), the Command Buffer (42 R150 to R154), the errors (00_scope R15, 60 R200 to R206), what
happens to a completed frame (40 R103, R107 to R109).
-/

namespace Sys2Proof.Machine

/-- The outcome of a step of this machine. -/
abbrev Out := Host.Outcome State Fault Refusal

/-- A second operation on the state a first one leaves; a fault or a refusal stops both. -/
def andThen (o : Out) (k : State → Out) : Out :=
  match o with
  | .next s => k s
  | .fault r => .fault r
  | .refused r => .refused r

/-! ### Memory: a sparse space with one value for unlisted addresses -/

/-- What address `a` holds; `d` is what an unlisted address reads as. -/
def Memory.read {α : Type} (d : α) : List (Nat × α) → Nat → α
  | [], _ => d
  | (b, v) :: m, a => if a = b then v else Memory.read d m a

/-- Writes `v` at `a`, keeping the canonical form: addresses rising, no entry equal to `d`. -/
def Memory.write {α : Type} [DecidableEq α] (d : α) : List (Nat × α) → Nat → α → List (Nat × α)
  | [], a, v => if v = d then [] else [(a, v)]
  | (b, w) :: m, a, v =>
    if a < b then (if v = d then (b, w) :: m else (a, v) :: (b, w) :: m)
    else if a = b then (if v = d then m else (a, v) :: m)
    else (b, w) :: Memory.write d m a v

/-- The canonical form from address `lo` on: addresses strictly rising, no entry equal to `d`. -/
def Memory.wfFrom {α : Type} [DecidableEq α] (d : α) : (lo : Nat) → List (Nat × α) → Bool
  | _, [] => true
  | lo, (a, v) :: m => decide (lo ≤ a) && decide (v ≠ d) && Memory.wfFrom d (a + 1) m

/-- The canonical form. -/
def Memory.wf {α : Type} [DecidableEq α] (d : α) (m : List (Nat × α)) : Bool := Memory.wfFrom d 0 m

/-- Every listed address is below `n`. -/
def Memory.below {α : Type} (n : Nat) (m : List (Nat × α)) : Bool := m.all fun e => decide (e.1 < n)

/-- `MemRead(RXBUF, a, 1)` (R14). -/
def State.rxCell (s : State) (a : Nat) : Byte := Memory.read 0x00 s.rxBuf a

/-- `MemWrite(RXBUF, a, 1, b)` (R14), `a` inside RXBUF. -/
def State.setRxCell (a : Nat) (b : Byte) (s : State) : State :=
  { s with rxBuf := Memory.write 0x00 s.rxBuf a b }

/-- `MemRead(RING, a, 1)` (R14). -/
def State.slot (s : State) (a : Nat) : Command := Memory.read blankCommand s.ring a

/-- `MemWrite(RING, a, 1, m)` (R14), `a` inside RING. -/
def State.setSlot (a : Nat) (m : Command) (s : State) : State :=
  { s with ring := Memory.write blankCommand s.ring a m }

/-- The `k`-th oldest queued command, `k < count` (R31, R59). -/
def State.queued (s : State) (k : Nat) : Command := s.slot ((s.head + k) % s.cfg.cmdCapacity)

/-- The queued commands, oldest first (R31). -/
def State.queue (s : State) : List Command := (List.range s.count).map s.queued

/-- `cstr` of the cells `a .. a+n-1` of RXBUF (R17). -/
def cstr (m : List Host.Cell) : (n a : Nat) → Text
  | 0, _ => []
  | n + 1, a =>
    let b := Memory.read 0x00 m a
    if b = 0x00 then [] else b :: cstr m n (a + 1)

/-- `payload_string()` (R107). -/
def State.payloadString (s : State) : Text := cstr s.rxBuf s.cfg.rxBufSize 0

/-! ### Readiness (R7, R176) -/

/-- The configuration keeps R7 and the session has been initialised (R176). -/
def State.ready (s : State) : Bool := s.cfg.ok && s.initialised

/-- An event of a configuration that R7 allows; otherwise refused (item U14). -/
def configured (s : State) (o : Out) : Out := if s.cfg.ok then o else .refused .badConfig

/-- An event other than `init_session`: refused before the first `init_session` (R176). -/
def whenReady (s : State) (o : Out) : Out :=
  configured s (if s.initialised then o else .refused .notInitialised)

/-! ### Output (R16) -/

/-- Returns a value to the agent that raised the event. -/
def State.answer (r : Result) (s : State) : State := { s with output := s.output ++ [.ret r] }

/-- `Tx(t)`: hands a frame text to the byte sink, which counts in `frames_sent` (R38, decision D10). -/
def State.transmit (t : Text) (s : State) : State :=
  { s with output := s.output ++ [.tx t], framesSent := bump s.cfg s.framesSent }

/-- `respond(kind)` (R186). -/
def State.respond (k : Kind) (s : State) : State := s.transmit (responseFrame s.cfg k)

/-! ### Counters (R38) -/

/-- A completed frame is counted, whatever its decode result. -/
def State.countReceived (s : State) : State :=
  { s with framesReceived := bump s.cfg s.framesReceived }

/-- A failed decode is counted, of either kind. -/
def State.countParseError (s : State) : State := { s with parseErrors := bump s.cfg s.parseErrors }

/-- An overflow is counted. -/
def State.countOverflow (s : State) : State := { s with rxOverflows := bump s.cfg s.rxOverflows }

/-- The four counters cleared (R172). -/
def State.clearCounters (s : State) : State :=
  { s with framesReceived := 0, framesSent := 0, parseErrors := 0, rxOverflows := 0 }

/-! ### The assembler's registers -/

/-- `state <- WAITING_START; rx_index <- 0`. -/
def State.settle (s : State) : State := { s with state := .waitingStart, rxIndex := 0 }

/-- `state <- RECEIVING; rx_index <- 0`: a frame is opened (R100, R102). -/
def State.openFrame (s : State) : State := { s with state := .receiving, rxIndex := 0 }

/-! ### The errors (R15, R200 to R206) -/

/-- The error taxonomy. -/
inductive Err where
  | rxOverflow
  | unrecognizedCommand
  | invalidParams
  | bufferFullEviction
  | queueEmpty
  | encodeTooSmall
  deriving DecidableEq, Repr

/-- `raise <Error>`: the whole entry of an error (R214, summary R217). It saves nothing and transfers
control nowhere: it counts, changes the assembler's registers and responds as the error's own rule
says. There is no return from it (R218). The eviction itself is `cb_enqueue`'s (R204). -/
def raise (e : Err) (s : State) : State :=
  match e with
  | .rxOverflow => s.countOverflow.settle
  | .unrecognizedCommand => s.countParseError.respond .errInvalidCommand
  | .invalidParams => s.countParseError.respond .errInvalidParams
  | .bufferFullEviction => s.respond .errBufferFull
  | .queueEmpty => s
  | .encodeTooSmall => s

/-! ### The Command Buffer -/

/-- `cb_init` (R150). -/
def State.cbInit (s : State) : State := { s with head := 0, count := 0, newestId := 0 }

/-- The oldest entry is dropped: `head` advances, `count` falls (R152, R154). -/
def State.dropOldest (s : State) : State :=
  { s with head := (s.head + 1) % s.cfg.cmdCapacity, count := s.count - 1 }

/-- The write of `cb_enqueue` into a buffer with room (R152): the stamped copy goes to
`(head + count) mod CMD_CAPACITY`. -/
def State.append (m : Command) (s : State) : State :=
  let id := succId s.newestId
  { s.setSlot ((s.head + s.count) % s.cfg.cmdCapacity) { m with id := id } with
    newestId := id, count := s.count + 1 }

/-- `cb_enqueue(cmd)` (R152) but for its result: a full buffer drops its oldest entry first. -/
def State.enqueue (m : Command) (s : State) : State :=
  if s.isFull then s.dropOldest.append m else s.append m

/-- `cb_dequeue` (R154), the operation of `get_next_command` too (R168). -/
def dequeue (s : State) : Out :=
  if s.count = 0 then .next ((raise .queueEmpty s).answer (.command none))
  else if s.head < s.cfg.cmdCapacity then
    .next (s.dropOldest.answer (.command (some (s.slot s.head))))
  else .fault (.ringIndex s.head)

/-! ### A completed frame (R103, R108, R109) -/

/-- `frame_accept(cmd)` (R108); `evicted` is `cb_enqueue`'s result, true when the buffer was full. -/
def frameAccept (m : Command) (s : State) : State :=
  if s.isFull then raise .bufferFullEviction (s.enqueue m) else (s.enqueue m).respond .ok

/-- What a completed frame does with its decode result, and the return to `WAITING_START` (R103). -/
def finishFrame (r : Payload) (s : State) : State :=
  match r with
  | .ok m => frameAccept m s.settle
  | .unrecognizedCommand => raise .unrecognizedCommand s.settle
  | .invalidParams => raise .invalidParams s.settle

/-- The first half of `RX_END` (R103): the NUL is written, the frame counted, the state `FRAME_READY`. -/
def closeFrame (s : State) : Out :=
  if s.rxIndex < s.cfg.rxBufSize then
    .next { (s.setRxCell s.rxIndex 0x00).countReceived with state := .frameReady }
  else .fault (.rxBufIndex s.rxIndex)

/-! ### Encoders -/

/-- Returns an encoder's answer; nothing is sent (R187, R189). -/
def answerText (e : Encoded) (s : State) : Out :=
  match e with
  | .text t => .next (s.answer (.text (some t)))
  | .noOutput => .next ((raise .encodeTooSmall s).answer (.text none))
  | .nonFinite => .refused .nonFiniteText

/-- Sends a telemetry frame if its text fits `TX_BUF_SIZE`, and does nothing if not (R170, R190). -/
def sendSample (m : Sample) (s : State) : Out :=
  match encodeTelemetryText s.cfg m s.cfg.txBufSize with
  | .text t => .next (s.transmit t)
  | .noOutput => .next (raise .encodeTooSmall s)
  | .nonFinite => .refused .nonFiniteText

/-- The telemetry text fits `TX_BUF_SIZE`: what `send_telemetry` answers (R170, decision D29). -/
def sampleFits (m : Sample) (s : State) : Bool :=
  match encodeTelemetryText s.cfg m s.cfg.txBufSize with
  | .text _ => true
  | .noOutput => false
  | .nonFinite => false

/-- The event `send_telemetry(sample)` (R170, R190): the sample is sent if it fits, and the answer says
whether it was. -/
def sendTelemetry (m : Sample) (s : State) : Out :=
  andThen (sendSample m s) fun t => .next (t.answer (.flag (sampleFits m s)))

/-! ### The level-1 selection (R73, R74, R106) -/

/-- `w[3]`: 0 when the state is `WAITING_START`; R106 takes every other state as `RECEIVING`. -/
def State.notWaiting (s : State) : Bool := decide (s.state ≠ .waitingStart)

/-- `w[0]`: no room for another payload byte (R74, R106). -/
def State.rxFull (s : State) : Bool := !decide (s.rxIndex < s.cfg.rxBufSize - 1)

/-- The 4-bit decode word of a received byte (R74). -/
def State.rxWord (s : State) (b : Byte) : BitVec 4 :=
  BitVec.ofBool s.notWaiting ++ classBits s.cfg b ++ BitVec.ofBool s.rxFull

/-- A row of format RXBYTE runs only where the received byte selects it (R74, R106; log entry 11). -/
def selected (s : State) (i : Instr) (b : Byte) (o : Out) : Out :=
  if decodeRx (s.rxWord b) b = .instr i then o else .refused .notSelected

end Sys2Proof.Machine
end

