-- ==== Sys2Proof/Machine/Commands.lean ====
section
/-!
DEFINITION. Format CMD: the command codes of a completed frame (spec 41 R126 to R132, R122, R123). Each
meaning is the second half of `RX_END` (40 R103) for a payload of its code: the parameters are decoded
and the frame accepted or rejected (R108, R109), with the assembler back in `WAITING_START`.
-/

namespace Sys2Proof.Machine

/-- `MV` (R128). -/
def execMv (tail : Text) (s : State) : Out :=
  whenReady s (.next (finishFrame (decodeMove s.cfg tail) s))

/-- `ST` (R126): the tail is ignored. -/
def execSt (_tail : Text) (s : State) : Out :=
  whenReady s (.next (finishFrame (decodeBare .st .stop) s))

/-- `GT` (R127): the tail is ignored. -/
def execGt (_tail : Text) (s : State) : Out :=
  whenReady s (.next (finishFrame (decodeBare .gt .getTelemetry) s))

/-- `SF` (R129). -/
def execSf (tail : Text) (s : State) : Out :=
  whenReady s (.next (finishFrame (decodeSpeed s.cfg .sf .moveForward tail) s))

/-- `SB` (R130). -/
def execSb (tail : Text) (s : State) : Out :=
  whenReady s (.next (finishFrame (decodeSpeed s.cfg .sb .moveBackwards tail) s))

/-- `SL` (R131). -/
def execSl (tail : Text) (s : State) : Out :=
  whenReady s (.next (finishFrame (decodeSpeed s.cfg .sl .moveLeft tail) s))

/-- `SR` (R132). -/
def execSr (tail : Text) (s : State) : Out :=
  whenReady s (.next (finishFrame (decodeSpeed s.cfg .sr .moveRight tail) s))

/-- `unknown` (R122, R123): the frame fails, whatever the payload holds. -/
def execUnknownCode (_payload : Text) (s : State) : Out :=
  whenReady s (.next (finishFrame .unrecognizedCommand s))

end Sys2Proof.Machine
end

