-- ==== Sys2Proof/Machine/Assembler.lean ====
section
/-!
DEFINITION. Format RXBYTE: the six transitions of the Frame Assembler (spec 40 R100 to R105) and the step
function of a received byte (R106).
-/

namespace Sys2Proof.Machine

/-- `WS_START` (R100): a frame is opened; the marker is not stored. -/
def execWsStart (b : Byte) (s : State) : Out :=
  whenReady s (selected s (.wsStart b) b (.next s.openFrame))

/-- `WS_DROP` (R101): the byte is dropped, uncounted. -/
def execWsDrop (b : Byte) (s : State) : Out :=
  whenReady s (selected s (.wsDrop b) b (.next s))

/-- `RX_RESTART` (R102): the frame in progress is abandoned without a trace (R112). -/
def execRxRestart (b : Byte) (s : State) : Out :=
  whenReady s (selected s (.rxRestart b) b (.next s.openFrame))

/-- The second half of `RX_END` (R103): the command of the payload runs. -/
def runPayload (p : Text) (s : State) : Out :=
  match splitPayload s.cfg p with
  | (.mv, tail) => execMv tail s
  | (.st, tail) => execSt tail s
  | (.gt, tail) => execGt tail s
  | (.sf, tail) => execSf tail s
  | (.sb, tail) => execSb tail s
  | (.sl, tail) => execSl tail s
  | (.sr, tail) => execSr tail s
  | (.unknown, _) => execUnknownCode p s

/-- `RX_END` (R103): the frame is closed and the command of its payload runs, in one event. -/
def execRxEnd (b : Byte) (s : State) : Out :=
  whenReady s (selected s (.rxEnd b) b (andThen (closeFrame s) fun t => runPayload t.payloadString t))

/-- `RX_DATA` (R104): the byte is stored and the index advances. -/
def execRxData (b : Byte) (s : State) : Out :=
  whenReady s (selected s (.rxData b) b
    (.next { s.setRxCell s.rxIndex b with rxIndex := s.rxIndex + 1 }))

/-- `RX_OVERFLOW` (R105): the partial frame is discarded; the byte is not stored. -/
def execRxOverflow (b : Byte) (s : State) : Out :=
  whenReady s (selected s (.rxOverflow b) b (.next (raise .rxOverflow s)))

/-- `RxByte(b)` (R106): the one transition that the state and the byte select. -/
def rxByte (b : Byte) (s : State) : Out :=
  if s.state = .waitingStart then
    if b = s.cfg.startMarker then execWsStart b s else execWsDrop b s
  else if b = s.cfg.startMarker then execRxRestart b s
  else if b = s.cfg.endMarker then execRxEnd b s
  else if s.rxIndex < s.cfg.rxBufSize - 1 then execRxData b s
  else execRxOverflow b s

/-- The `RxByte` events of a byte sequence, in order; the answer holds the sum of the enqueues seen by
the test of R173 (`newest_id` changed by the byte). -/
def rxBytes : Text → Nat → State → Out × Nat
  | [], n, s => (.next s, n)
  | b :: bs, n, s =>
    match rxByte b s with
    | .next t => rxBytes bs (if t.newestId = s.newestId then n else n + 1) t
    | .fault r => (.fault r, n)
    | .refused r => (.refused r, n)

end Sys2Proof.Machine
end

