-- ==== Sys2Proof/Machine/Buffer.lean ====
section
/-!
DEFINITION. The Command Buffer operations called by themselves (spec 42 R150 to R157, item U20).
-/

namespace Sys2Proof.Machine

/-- `cb_init` (R150). -/
def execCbInit (s : State) : Out := whenReady s (.next s.cbInit)

/-- `cb_enqueue(cmd)` (R152); its result is `evicted`. -/
def execCbEnqueue (m : Command) (s : State) : Out :=
  whenReady s (.next ((s.enqueue m).answer (.flag s.isFull)))

/-- `cb_dequeue` (R154). -/
def execCbDequeue (s : State) : Out := whenReady s (dequeue s)

/-- `cb_is_empty` (R155). -/
def execCbIsEmpty (s : State) : Out := whenReady s (.next (s.answer (.flag s.isEmpty)))

/-- `cb_is_full` (R156). -/
def execCbIsFull (s : State) : Out := whenReady s (.next (s.answer (.flag s.isFull)))

/-- `cb_count` (R157). -/
def execCbCount (s : State) : Out := whenReady s (.next (s.answer (.number s.count)))

end Sys2Proof.Machine
end

