-- ==== Sys2Proof/Machine/Session.lean ====
section
/-!
DEFINITION. The session operations (spec 43 R165 to R173).
-/

namespace Sys2Proof.Machine

/-- `init_session` (R165), the block's only reset (R230): every register but RXBUF and RING; nothing is
sent and no pending byte is consumed (R233). -/
def execInitSession (s : State) : Out :=
  configured s (.next { s.settle.cbInit.clearCounters with initialised := true })

/-- `process_available_input` (R173): the byte source is drained through `RxByte`. -/
def execProcessAvailableInput (s : State) : Out :=
  whenReady s
    (match rxBytes s.source 0 { s with source := [] } with
    | (o, n) => andThen o fun t => .next (t.answer (.number n)))

/-- `has_pending_command` (R167). -/
def execHasPendingCommand (s : State) : Out := whenReady s (.next (s.answer (.flag s.hasPending)))

/-- `get_next_command` (R168). -/
def execGetNextCommand (s : State) : Out := whenReady s (dequeue s)

/-- `send_response(kind)` (R169). -/
def execSendResponse (k : Kind) (s : State) : Out := whenReady s (.next (s.respond k))

/-- `send_telemetry(sample)` (R170): sends, and returns whether it did. -/
def execSendTelemetry (m : Sample) (s : State) : Out := whenReady s (sendTelemetry m s)

/-- `get_statistics` (R171): the read does not clear. -/
def execGetStatistics (s : State) : Out :=
  whenReady s (.next (s.answer
    (.statistics s.framesReceived s.framesSent s.parseErrors s.rxOverflows)))

/-- `reset_statistics` (R172). -/
def execResetStatistics (s : State) : Out := whenReady s (.next s.clearCounters)

end Sys2Proof.Machine
end

