-- ==== Sys2Proof/Machine/Transmit.lean ====
section
/-!
DEFINITION. Formats TXRESP and TXTEL: the consumer's send events, each named by the text it sends (spec 44
R186, R190, log entry 10). Format OPENC: the encoders called by themselves (R185, R187, R189). The response
parser (R191).
-/

namespace Sys2Proof.Machine

/-- `RESP_OK`: the response is sent (R185, R186). -/
def execRespOk (s : State) : Out := whenReady s (.next (s.respond .ok))

/-- `RESP_NACK` (R185, R186). -/
def execRespNack (s : State) : Out := whenReady s (.next (s.respond .nack))

/-- `RESP_ERR_INVALID_COMMAND` (R185, R186). -/
def execRespErrInvalidCommand (s : State) : Out := whenReady s (.next (s.respond .errInvalidCommand))

/-- `RESP_ERR_INVALID_PARAMS` (R185, R186). -/
def execRespErrInvalidParams (s : State) : Out := whenReady s (.next (s.respond .errInvalidParams))

/-- `RESP_ERR_BUFFER_FULL` (R185, R186). -/
def execRespErrBufferFull (s : State) : Out := whenReady s (.next (s.respond .errBufferFull))

/-- `TEL`: the telemetry frame is sent (R189). It is sent only by `send_telemetry` (R190), so this row is
that event, result and all. -/
def execTel (m : Sample) (s : State) : Out := whenReady s (sendTelemetry m s)

/-- `encode_command(cmd, size)` (R187). -/
def execEncodeCommand (m : Command) (size : Nat) (s : State) : Out :=
  whenReady s (answerText (encodeCommandText s.cfg m size) s)

/-- `encode_telemetry(sample, size)` (R189). -/
def execEncodeTelemetry (m : Sample) (size : Nat) (s : State) : Out :=
  whenReady s (answerText (encodeTelemetryText s.cfg m size) s)

/-- `encode_response(kind)` (R185). -/
def execEncodeResponse (k : Kind) (s : State) : Out :=
  whenReady s (.next (s.answer (.text (some (responseFrame s.cfg k)))))

/-- `parse_response(text)` (R191). -/
def execParseResponse (text : Text) (s : State) : Out :=
  whenReady s (.next (s.answer (.parsed (parseResponseText s.cfg text))))

end Sys2Proof.Machine
end

