-- ==== Sys2Proof/Machine/Dispatch.lean ====
section
/-!
DEFINITION. One arm per instruction, in the order of spec/opcode_table.json.
-/

namespace Sys2Proof.Machine

def exec (i : Instr) (s : State) : Host.Outcome State Fault Refusal :=
  match i with
  -- format RXBYTE
  | .wsStart b => Sys2Proof.Machine.execWsStart b s
  | .wsDrop b => Sys2Proof.Machine.execWsDrop b s
  | .rxRestart b => Sys2Proof.Machine.execRxRestart b s
  | .rxEnd b => Sys2Proof.Machine.execRxEnd b s
  | .rxData b => Sys2Proof.Machine.execRxData b s
  | .rxOverflow b => Sys2Proof.Machine.execRxOverflow b s
  -- format CMD
  | .mv tail => Sys2Proof.Machine.execMv tail s
  | .st tail => Sys2Proof.Machine.execSt tail s
  | .gt tail => Sys2Proof.Machine.execGt tail s
  | .sf tail => Sys2Proof.Machine.execSf tail s
  | .sb tail => Sys2Proof.Machine.execSb tail s
  | .sl tail => Sys2Proof.Machine.execSl tail s
  | .sr tail => Sys2Proof.Machine.execSr tail s
  | .unknownCode payload => Sys2Proof.Machine.execUnknownCode payload s
  -- formats TXRESP and TXTEL
  | .respOk => Sys2Proof.Machine.execRespOk s
  | .respNack => Sys2Proof.Machine.execRespNack s
  | .respErrInvalidCommand => Sys2Proof.Machine.execRespErrInvalidCommand s
  | .respErrInvalidParams => Sys2Proof.Machine.execRespErrInvalidParams s
  | .respErrBufferFull => Sys2Proof.Machine.execRespErrBufferFull s
  | .tel sample => Sys2Proof.Machine.execTel sample s
  -- format OP
  | .initSession => Sys2Proof.Machine.execInitSession s
  | .processAvailableInput => Sys2Proof.Machine.execProcessAvailableInput s
  | .hasPendingCommand => Sys2Proof.Machine.execHasPendingCommand s
  | .getNextCommand => Sys2Proof.Machine.execGetNextCommand s
  | .sendResponse kind => Sys2Proof.Machine.execSendResponse kind s
  | .sendTelemetry sample => Sys2Proof.Machine.execSendTelemetry sample s
  | .getStatistics => Sys2Proof.Machine.execGetStatistics s
  | .resetStatistics => Sys2Proof.Machine.execResetStatistics s
  | .cbInit => Sys2Proof.Machine.execCbInit s
  | .cbEnqueue cmd => Sys2Proof.Machine.execCbEnqueue cmd s
  | .cbDequeue => Sys2Proof.Machine.execCbDequeue s
  | .cbIsEmpty => Sys2Proof.Machine.execCbIsEmpty s
  | .cbIsFull => Sys2Proof.Machine.execCbIsFull s
  | .cbCount => Sys2Proof.Machine.execCbCount s
  -- format OPENC, and parse_response
  | .encodeCommand cmd size => Sys2Proof.Machine.execEncodeCommand cmd size s
  | .encodeTelemetry sample size => Sys2Proof.Machine.execEncodeTelemetry sample size s
  | .encodeResponse kind => Sys2Proof.Machine.execEncodeResponse kind s
  | .parseResponse text => Sys2Proof.Machine.execParseResponse text s

end Sys2Proof.Machine
end

