-- ==== Sys2Proof/Machine/Fetch.lean ====
section
/-!
DEFINITION. Fetching: where the next instruction comes from, and how a table word is placed there.
A received byte is turned into the decode word of spec 30_encoding R74; an operation and a transmit text are decoded
as they stand; the command of a completed frame is fetched from RXBUF (log entries 5 and 9).
-/

namespace Sys2Proof.Machine

/-- What the next step works on. -/
inductive Fetched where
  /-- an instruction, and the state with its request taken -/
  | instr (i : Instr) (s : State)
  /-- no event of the block: the state as the outside leaves it -/
  | outside (s : State)
  /-- bytes that are no instruction -/
  | reject (e : DecodeError)
  deriving DecidableEq, Repr

/-- A decoded instruction with the state it will run on. -/
def fetchedOf (d : Decoded) (s : State) : Fetched :=
  match d with
  | .instr i => .instr i s
  | .reject e => .reject e

/-- The bytes of format RXBYTE that a received byte makes: the decode word and the byte (R74). -/
def State.rxBytesOf (s : State) (b : Byte) : Text := [BitVec.ofNat 8 (s.rxWord b).toNat, b]

/-- What a request asks for, with the request taken out of the inbox. -/
def fetchRequest (r : Request) (s : State) : Fetched :=
  match r with
  | .rxByte b => fetchedOf (decode s.cfg .rx (s.rxBytesOf b)) s
  | .op bytes => fetchedOf (decode s.cfg .op bytes) s
  | .tx bytes => fetchedOf (decode s.cfg .tx bytes) s
  | .arrive bytes => .outside { s with source := s.source ++ bytes }

/-- A completed frame's command runs next: the session is in `FRAME_READY`. Before the first `init_session`
the state register is undefined and says nothing (R176). -/
def State.frameWaiting (s : State) : Bool := s.initialised && decide (s.state = .frameReady)

/-- What the next step works on. `FRAME_READY` folds back before any further event (R21, R23); with no
request pending the block waits (R227). Before the first `init_session` every event comes from the inbox, so
`init_session` runs whatever the registers hold (R237). -/
def fetch (s : State) : Fetched :=
  if s.frameWaiting then fetchedOf (decode s.cfg .cmd s.payloadString) s
  else
    match s.inbox with
    | [] => .outside s
    | r :: rest => fetchRequest r { s with inbox := rest }

/-- The cells of RXBUF with a text written from cell `a` on. -/
def storeText (m : List Host.Cell) (a : Nat) : Text → List Host.Cell
  | [] => m
  | b :: s => storeText (Memory.write 0x00 m a b) (a + 1) s

/-- The state in which the next step fetches a completed frame whose payload is `p`: the payload and its
NUL in RXBUF, an initialised session in `FRAME_READY` (R103, R107, R176). -/
def State.placePayload (p : Text) (s : State) : State :=
  { s with
    initialised := true
    rxBuf := storeText s.rxBuf 0 (p ++ [0x00])
    rxIndex := p.length
    state := .frameReady }

/-- The state in which the next step takes `r`: first in the inbox, with no frame waiting. -/
def State.placeRequest (r : Request) (s : State) : State :=
  { s with
    inbox := r :: s.inbox
    state := if s.frameWaiting then .waitingStart else s.state }

/-- A table word with operands of zeros, placed where the next step fetches it (log entry 8). -/
def placeWord (s : State) (nbits w : Nat) : State :=
  match formatOfBits nbits with
  | .cmd => s.placePayload (untilNul (tableBytes nbits w))
  | .tx => s.placeRequest (.tx (tableBytes nbits w))
  | .op => s.placeRequest (.op (tableBytes nbits w))
  | .rx => s.placeRequest (.rxByte 0x00)

end Sys2Proof.Machine
end

