-- ==== Sys2Proof/WellFormed.lean ====
section
/-!
DEFINITION. Well-formed instructions: the operands the spec admits for each row.
-/

namespace Sys2Proof

/-- A text without a NUL: what stands in front of a payload's terminator (R107), and the operand of
`parse_response` (R191). -/
def nulFree (s : Text) : Bool := s.all fun b => decide (b ≠ 0x00)

/-- At most `MAX_PARAMS` parameters, and no more than the count byte of the port can hold (R26; log
entry 7). -/
def Command.wf (c : Config) (m : Command) : Bool :=
  decide (m.params.length ≤ c.maxParams) && decide (m.params.length < 256)

/-- The first letters of the codes are not whitespace and the separator is not the NUL of a payload
string, so that a command text reads back (R7 does not ask for it; the reference parameters keep it). -/
def Config.readable (c : Config) : Bool :=
  !isWs c 0x4D && !isWs c 0x53 && !isWs c 0x47 && decide (c.sepCode ≠ 0x00)

/-- The operands of an instruction are ones its row admits. -/
def Instr.wf (c : Config) : Instr → Bool
  -- the byte is of the row's class (R74)
  | .wsStart b => decide (b = c.startMarker)
  | .wsDrop b => decide (b ≠ c.startMarker)
  | .rxRestart b => decide (b = c.startMarker)
  | .rxEnd b => decide (b ≠ c.startMarker) && decide (b = c.endMarker)
  | .rxData b => decide (b ≠ c.startMarker) && decide (b ≠ c.endMarker)
  | .rxOverflow b => decide (b ≠ c.startMarker) && decide (b ≠ c.endMarker)
  -- the tail is part of a payload string (R107)
  | .mv tail | .st tail | .gt tail | .sf tail | .sb tail | .sl tail | .sr tail => nulFree tail
  -- no command code matches (R122, R123)
  | .unknownCode p => nulFree p && decide ((splitPayload c p).1 = .unknown)
  | .respOk | .respNack | .respErrInvalidCommand | .respErrInvalidParams | .respErrBufferFull => true
  | .tel _ => true
  | .initSession | .processAvailableInput | .hasPendingCommand | .getNextCommand => true
  | .sendResponse _ | .sendTelemetry _ | .getStatistics | .resetStatistics => true
  | .cbInit | .cbDequeue | .cbIsEmpty | .cbIsFull | .cbCount => true
  | .cbEnqueue m => m.wf c
  -- a destination size the port's four bytes can hold (log entry 7)
  | .encodeCommand m n => m.wf c && decide (n < 2 ^ 32)
  | .encodeTelemetry _ n => decide (n < 2 ^ 32)
  | .encodeResponse _ => true
  | .parseResponse text => nulFree text

end Sys2Proof
end

