-- ==== Sys2Proof/Safety.lean ====
section
/-!
DEFINITION. The terms claims are stated in: the invariant that holds between events, safe outcomes, the
value of a binary64 pattern, likeness of states that differ only in what no rule reads, and groups of
instructions.
-/

namespace Sys2Proof.Machine

/-- What holds between any two events: R7, R22, R23, R31, R153, and the canonical form of the two
spaces. -/
structure State.Inv (s : State) : Prop where
  /-- the parameters keep R7 -/
  cfgOk : s.cfg.ok = true
  /-- `FRAME_READY` is never the state between two events (R23) -/
  notFrameReady : s.state ≠ .frameReady
  /-- `rx_index` is 0 in `WAITING_START` (R22) -/
  waitingIndex : s.state = .waitingStart → s.rxIndex = 0
  /-- `0 <= rx_index <= RX_BUF_SIZE - 1 = MAX_PAYLOAD` (R22) -/
  indexLe : s.rxIndex ≤ s.cfg.maxPayload
  /-- `0 <= head < CMD_CAPACITY` (R31) -/
  headLt : s.head < s.cfg.cmdCapacity
  /-- `count <= capacity` (R31) -/
  countLe : s.count ≤ s.cfg.cmdCapacity
  /-- RXBUF is in canonical form, with no cell outside it (R42) -/
  rxBufWf : Memory.wf 0x00 s.rxBuf = true
  rxBufBelow : Memory.below s.cfg.rxBufSize s.rxBuf = true
  /-- RING is in canonical form, with no slot outside it (R42) -/
  ringWf : Memory.wf blankCommand s.ring = true
  ringBelow : Memory.below s.cfg.cmdCapacity s.ring = true
  /-- the newest queued command has `id = newest_id` (R153) -/
  newestIs : ∀ k, k + 1 = s.count → (s.queued k).id = s.newestId
  /-- every queued command has an id in 1 .. 65535 (R153) -/
  idsSet : ∀ k, k < s.count → (s.queued k).id ≠ 0
  /-- no queued command holds more than `MAX_PARAMS` parameters (R26, R69) -/
  paramsLe : ∀ k, k < s.count → (s.queued k).params.length ≤ s.cfg.maxParams
  /-- the ids are consecutive, oldest to newest, in the cyclic order (R153) -/
  idsConsecutive : ∀ k, k + 1 < s.count → (s.queued (k + 1)).id = succId (s.queued k).id

/-- An outcome that is no fault: "Nothing in this core is treated as fatal" (R216). -/
def Safe (o : Out) : Prop := ∀ r, o ≠ .fault r

/-- Two states that differ at most in what no rule reads: cells of RXBUF at and above `rx_index`, and
slots of RING that hold no queued command (R24, R33, R231). -/
def State.Alike (s t : State) : Prop :=
  t = { s with rxBuf := t.rxBuf, ring := t.ring } ∧
    (∀ a, a < s.rxIndex → s.rxCell a = t.rxCell a) ∧
    (∀ k, k < s.count → s.queued k = t.queued k)

/-- The exact value of a finite binary64 pattern (R12). -/
def f64Value (v : F64) : ℚ :=
  (if f64Neg v then -1 else 1) * ((significand (f64Mag v) : ℚ) * (2 : ℚ) ^ exponent2 (f64Mag v))

/-- The value of a binary64 pattern that is no NaN, with the two infinities at the ends (R12, R135). -/
def f64Ext (v : F64) : WithBot (WithTop ℚ) :=
  if f64IsFinite v then ((f64Value v : WithTop ℚ) : WithBot (WithTop ℚ)) else if f64Neg v then ⊥ else ⊤

/-- The exact value of a signed decimal number `digits * 10 ^ exp` (R139). -/
def decimalValue (neg : Bool) (digits : Nat) (exp : Int) : ℚ :=
  (if neg then -1 else 1) * ((digits : ℚ) * (10 : ℚ) ^ exp)

/-- Every byte of the text is a digit (R138). -/
def allDigits (s : Text) : Bool := s.all fun b => (digitVal b).isSome

/-- The number a text of digits is, most significant first (R72). -/
def digitsValue (s : Text) : Nat := s.foldl (fun n b => 10 * n + (digitVal b).getD 0) 0

/-- `sign?` of R138, with the sign it stands for. -/
def IsSign (s : Text) (neg : Bool) : Prop :=
  (neg = false ∧ (s = [] ∨ s = [0x2B])) ∨ (neg = true ∧ s = [0x2D])

/-- `mantissa` of R138, with its digits before and after the point. -/
def IsMantissa (s whole frac : Text) : Prop :=
  allDigits whole = true ∧ allDigits frac = true ∧
    ((s = whole ∧ whole ≠ [] ∧ frac = []) ∨ (s = whole ++ 0x2E :: frac ∧ (whole ≠ [] ∨ frac ≠ [])))

/-- `exponent?` of R138, with its value. -/
def IsExponent (s : Text) (e : Int) : Prop :=
  (s = [] ∧ e = 0) ∨
    ∃ letter sign digits neg, s = letter :: (sign ++ digits) ∧ (letter = 0x65 ∨ letter = 0x45) ∧
      IsSign sign neg ∧ allDigits digits = true ∧ digits ≠ [] ∧
      e = if neg then -(digitsValue digits : Int) else (digitsValue digits : Int)

/-- The text is a `number` of R138, and its exact value is `digits * 10 ^ exp` with the sign. -/
def IsNumber (s : Text) (neg : Bool) (digits : Nat) (exp : Int) : Prop :=
  ∃ sign mantissa exponent whole frac e, s = sign ++ mantissa ++ exponent ∧ IsSign sign neg ∧
    IsMantissa mantissa whole frac ∧ IsExponent exponent e ∧
    digits = digitsValue (whole ++ frac) ∧ exp = e - (frac.length : Int)

/-- The `f64` of an integer, as the tokenizer makes it from the integer's decimal text. -/
def f64OfInt (k : Int) : F64 := f64OfDecimal (decide (k < 0)) k.natAbs 0

/-- The six rows of format RXBYTE for a byte (R74). -/
def rxRows (b : Byte) : List Instr :=
  [.wsStart b, .wsDrop b, .rxRestart b, .rxEnd b, .rxData b, .rxOverflow b]

/-- The consumer's operations that leave the assembler alone (R115): all operations of the command port, and
the send events named by their texts, but `init_session`, which resets it, and `process_available_input`,
which raises `RxByte` events. -/
def consumerOp : Instr → Bool
  | .hasPendingCommand | .getNextCommand | .sendResponse _ | .sendTelemetry _ => true
  | .getStatistics | .resetStatistics => true
  | .cbInit | .cbEnqueue _ | .cbDequeue | .cbIsEmpty | .cbIsFull | .cbCount => true
  | .encodeCommand _ _ | .encodeTelemetry _ _ | .encodeResponse _ | .parseResponse _ => true
  | .wsStart _ | .wsDrop _ | .rxRestart _ | .rxEnd _ | .rxData _ | .rxOverflow _ => false
  | .mv _ | .st _ | .gt _ | .sf _ | .sb _ | .sl _ | .sr _ | .unknownCode _ => false
  | .respOk | .respNack | .respErrInvalidCommand | .respErrInvalidParams | .respErrBufferFull => true
  | .tel _ => true
  | .initSession | .processAvailableInput => false

/-- The rows of format CMD. -/
def commandRow : Instr → Bool
  | .mv _ | .st _ | .gt _ | .sf _ | .sb _ | .sl _ | .sr _ | .unknownCode _ => true
  | .wsStart _ | .wsDrop _ | .rxRestart _ | .rxEnd _ | .rxData _ | .rxOverflow _ => false
  | .respOk | .respNack | .respErrInvalidCommand | .respErrInvalidParams | .respErrBufferFull => false
  | .tel _ | .initSession | .processAvailableInput | .hasPendingCommand | .getNextCommand => false
  | .sendResponse _ | .sendTelemetry _ | .getStatistics | .resetStatistics => false
  | .cbInit | .cbEnqueue _ | .cbDequeue | .cbIsEmpty | .cbIsFull | .cbCount => false
  | .encodeCommand _ _ | .encodeTelemetry _ _ | .encodeResponse _ | .parseResponse _ => false

/-- The instructions that decode a completed frame: `RX_END` and the rows of format CMD (R103). -/
def frameRow (i : Instr) : Bool :=
  commandRow i ||
    match i with
    | .rxEnd _ => true
    | _ => false

/-- The instructions that store a command in RING: the accepted commands and `cb_enqueue` (R54). -/
def ringWriter (i : Instr) : Bool :=
  frameRow i ||
    match i with
    | .cbEnqueue _ => true
    | _ => false

/-- The instructions that store a byte in RXBUF: a payload byte, or the NUL of a completed frame (R54). -/
def rxBufWriter : Instr → Bool
  | .rxEnd _ => true
  | .rxData _ => true
  | _ => false

/-- The slot of RING an enqueue stores to (R152): the evicted one when the buffer is full. -/
def State.storedSlot (s : State) : Nat :=
  if s.isFull then ((s.head + 1) % s.cfg.cmdCapacity + (s.count - 1)) % s.cfg.cmdCapacity
  else (s.head + s.count) % s.cfg.cmdCapacity

/-- An output is a string handed to the byte sink. -/
def Output.isTx : Output → Bool
  | .tx _ => true
  | .ret _ => false

/-- How many outputs are the response frame of `k`. -/
def responsesOf (c : Config) (k : Kind) (o : List Output) : Nat :=
  (o.filter fun x => decide (x = .tx (responseFrame c k))).length

/-- The text of a command frame for finite parameters (R77, R187): the letters, and the parameters with
one fractional digit each behind a separator. -/
def commandFrame (c : Config) (code : Text) (params : List F64) : Text :=
  c.startMarker :: (code ++
    (if params = [] then []
      else c.sepCode :: List.intercalate [c.sepParam] (params.map fun v => (fmtFixed c v 1).getD [])) ++
    [c.endMarker])

/-- The text of a telemetry frame for a finite sample (R79, R189). -/
def telemetryFrame (c : Config) (m : Sample) : Text :=
  c.startMarker :: (telToken ++
    List.intercalate [0x2C]
      [(fmtFixed c m.battery 2).getD [], (fmtFixed c m.left 1).getD [],
        (fmtFixed c m.right 1).getD [], (fmtFixed c m.temp 1).getD [], fmtUint m.timestamp] ++
    [c.endMarker])

/-- All four numbers of a sample are finite. -/
def sampleFinite (m : Sample) : Bool :=
  f64IsFinite m.battery && f64IsFinite m.left && f64IsFinite m.right && f64IsFinite m.temp

/-- How many outputs answer a frame whose command was queued: `OK` and `ERR:BUFFER_FULL` (R108, R110). -/
def queuedResponses (c : Config) (o : List Output) : Nat :=
  responsesOf c .ok o + responsesOf c .errBufferFull o

/-- The response frames the assembler emits on its own (R110). -/
def assemblerKinds : List Kind := [.ok, .errBufferFull, .errInvalidCommand, .errInvalidParams]

end Sys2Proof.Machine
end

