-- ==== Sys2Proof/Certificates/Slice0/Obligations.lean ====
section
/-!
DEFINITION. The statements for the provers. Each docstring names the rule of spec/ it formalises.
A statement says `s.ready` where the rule needs only that the parameters keep R7 and that the session
was initialised (R176).
-/

open Sys2Proof Sys2Proof.Machine

/-! ### Encoding -/

/-- A few words of the table, written out from the spec's encodings (R74, R78, R79, R81, R94), and byte by
byte the response frames of R78, the token of R79 and the letters an encoder writes (R81). The sample's bytes
behind the prefix `STEL:` are the model's own (log entry 7). -/
def Obligations.TableWordsDecode : Prop :=
  decode Config.reference .rx [0b1100, 0x45] = .instr (.rxEnd 0x45) ∧
  decode Config.reference .rx [0b1001, 0x41] = .instr (.rxOverflow 0x41) ∧
  decode Config.reference .cmd [0x6D, 0x56, 0x3A, 0x31] = .instr (.mv [0x31]) ∧
  decodeTableWord 16 0x5354 = some (.st []) ∧
  decodeTableWord 32 0x534F4B45 = some .respOk ∧
  decodeTableWord 8 0x03 = some .getNextCommand ∧
  decode Config.reference .op [0x2E, 0x01] = .instr (.encodeResponse .nack) ∧
  decode Config.reference .op [0x3E] = .reject .unusedEncSel ∧
  responseFrame Config.reference .ok = [0x53, 0x4F, 0x4B, 0x45] ∧
  responseFrame Config.reference .nack = [0x53, 0x4E, 0x41, 0x43, 0x4B, 0x45] ∧
  responseFrame Config.reference .errInvalidCommand =
    [0x53, 0x45, 0x52, 0x52, 0x3A, 0x49, 0x4E, 0x56, 0x41, 0x4C, 0x49, 0x44, 0x5F, 0x43, 0x4F, 0x4D,
      0x4D, 0x41, 0x4E, 0x44, 0x45] ∧
  responseFrame Config.reference .errInvalidParams =
    [0x53, 0x45, 0x52, 0x52, 0x3A, 0x49, 0x4E, 0x56, 0x41, 0x4C, 0x49, 0x44, 0x5F, 0x50, 0x41, 0x52,
      0x41, 0x4D, 0x53, 0x45] ∧
  responseFrame Config.reference .errBufferFull =
    [0x53, 0x45, 0x52, 0x52, 0x3A, 0x42, 0x55, 0x46, 0x46, 0x45, 0x52, 0x5F, 0x46, 0x55, 0x4C, 0x4C,
      0x45] ∧
  telToken = [0x54, 0x45, 0x4C, 0x3A] ∧
  decode Config.reference .tx ([0x53, 0x54, 0x45, 0x4C, 0x3A] ++ List.replicate 36 0x00) =
    .instr (.tel ⟨0, 0, 0, 0, 0⟩) ∧
  [Code.mv, .st, .gt, .sf, .sb, .sl, .sr, .unknown].map letters =
    [some [0x4D, 0x56], some [0x53, 0x54], some [0x47, 0x54], some [0x53, 0x46], some [0x53, 0x42],
      some [0x53, 0x4C], some [0x53, 0x52], none]

/-- Decoding the encoding of a well-formed instruction gives the instruction back, for all 38 rows and
every operand (the operand bytes are the model's own, log entry 7). -/
def Obligations.DecodeEncodeRoundTrip : Prop :=
  ∀ (c : Config) (i : Instr), c.readable = true → i.wf c = true →
    decode c (formatOf i) (encode c i) = .instr i

/-- R81, a sentence the spec derives from R17 (decision D23, log entry 17) and R71: the masked match accepts
exactly the upper- and lower-case spelling of each letter: it is the exact match of the folded pair. -/
def Obligations.MaskIgnoresLetterCase : Prop :=
  ∀ c1 c2 : Byte, lookupCode c1 c2 =
    (if upper c1 = 0x4D ∧ upper c2 = 0x56 then .mv
     else if upper c1 = 0x53 ∧ upper c2 = 0x54 then .st
     else if upper c1 = 0x47 ∧ upper c2 = 0x54 then .gt
     else if upper c1 = 0x53 ∧ upper c2 = 0x46 then .sf
     else if upper c1 = 0x53 ∧ upper c2 = 0x42 then .sb
     else if upper c1 = 0x53 ∧ upper c2 = 0x4C then .sl
     else if upper c1 = 0x53 ∧ upper c2 = 0x52 then .sr
     else .unknown)

/-- R106 and R74: for every value of the state fields and every byte exactly one row is selected, and the
markers are tested before the room, an order the spec derives. In `FRAME_READY`, and with `rx_index` beyond
the buffer, the tests are taken as written (log entry 12). -/
def Obligations.ReceivedByteSelectsOneRow : Prop :=
  ∀ (s : State) (b : Byte), decodeRx (s.rxWord b) b = .instr
    (if s.state = .waitingStart then
       if b = s.cfg.startMarker then .wsStart b else .wsDrop b
     else if b = s.cfg.startMarker then .rxRestart b
     else if b = s.cfg.endMarker then .rxEnd b
     else if s.rxIndex < s.cfg.rxBufSize - 1 then .rxData b
     else .rxOverflow b)

/-! ### The step -/

/-- A step runs the instruction it decodes: from RXBUF in an initialised session in `FRAME_READY`, otherwise
(before the first `init_session` whatever the registers hold, R176) from the first request of the inbox, which is taken (a received byte is first made the word of R74). Bytes that are no
instruction are refused by name; with no request the block waits; bytes the link delivers go to the byte
source (log entries 5 and 9). -/
def Obligations.StepRunsTheDecodedInstruction : Prop :=
  ∀ s : State,
    (s.initialised = true → s.state = .frameReady →
      step s = exec (decodeCmd s.cfg s.payloadString) s) ∧
    (s.initialised = false ∨ s.state ≠ .frameReady →
      (s.inbox = [] → step s = .next s) ∧
      ∀ rest,
        (∀ bytes, s.inbox = .arrive bytes :: rest →
          step s = .next { s with inbox := rest, source := s.source ++ bytes }) ∧
        (∀ (f : Format) (bytes : Text),
          ((∃ b, s.inbox = .rxByte b :: rest ∧ f = .rx ∧ bytes = s.rxBytesOf b) ∨
            (s.inbox = .op bytes :: rest ∧ f = .op) ∨ (s.inbox = .tx bytes :: rest ∧ f = .tx)) →
          (∀ i, decode s.cfg f bytes = .instr i → step s = exec i { s with inbox := rest }) ∧
          (∀ e, decode s.cfg f bytes = .reject e → step s = .refused (.undecodable e))))

/-- R106: the step of a received byte is `RxByte`, which is total. -/
def Obligations.ReceivedByteAlwaysCompletes : Prop :=
  ∀ (s : State) (b : Byte) (rest : List Request), s.ready = true → s.state ≠ .frameReady →
    s.rxIndex < s.cfg.rxBufSize → s.inbox = .rxByte b :: rest →
    ∃ t, step s = .next t ∧ rxByte b { s with inbox := rest } = .next t

/-- R74: a row of format RXBYTE runs exactly where the received byte selects it (log entry 11). -/
def Obligations.RowsRunOnlyWhereSelected : Prop :=
  ∀ (s : State) (b : Byte) (i : Instr), s.ready = true → i ∈ rxRows b →
    (exec i s ≠ .refused .notSelected ↔ decodeRx (s.rxWord b) b = .instr i)

/-- R7: a configuration that breaks a constraint is refused. R176: before the first `init_session` every
other event is refused. R238: a step whose event is a received byte is refused there too, whatever the
registers hold. -/
def Obligations.RefusedWhenNotReady : Prop :=
  ∀ (s : State) (i : Instr),
    (s.cfg.ok = false → exec i s = .refused .badConfig) ∧
    (s.cfg.ok = true → s.initialised = false → i ≠ .initSession →
      exec i s = .refused .notInitialised) ∧
    (∀ b rest, s.cfg.ok = true → s.initialised = false → s.inbox = .rxByte b :: rest →
      step s = .refused .notInitialised)

/-- An access outside a space of R42, which no run reaches (R53), faults by name (log entry 13): the NUL of
a completed frame, and the read of the oldest command. -/
def Obligations.IndexOutsideSpaceFaults : Prop :=
  ∀ s : State, s.ready = true →
    (∀ b, s.state ≠ .waitingStart → b = s.cfg.endMarker → s.cfg.rxBufSize ≤ s.rxIndex →
      exec (.rxEnd b) s = .fault (.rxBufIndex s.rxIndex)) ∧
    (s.count ≠ 0 → s.cfg.cmdCapacity ≤ s.head →
      exec .cbDequeue s = .fault (.ringIndex s.head) ∧
      exec .getNextCommand s = .fault (.ringIndex s.head))

/-! ### The Frame Assembler -/

/-- R100 and R101. -/
def Obligations.WaitingStartBytes : Prop :=
  ∀ (s : State) (b : Byte), s.ready = true → s.state = .waitingStart →
    (b = s.cfg.startMarker →
      exec (.wsStart b) s = .next { s with state := .receiving, rxIndex := 0 }) ∧
    (b ≠ s.cfg.startMarker → exec (.wsDrop b) s = .next s)

/-- R102: whatever `rx_index` is. -/
def Obligations.ReceivingStartMarkerRestarts : Prop :=
  ∀ (s : State) (b : Byte), s.ready = true → s.state = .receiving → b = s.cfg.startMarker →
    exec (.rxRestart b) s = .next { s with rxIndex := 0 }

/-- R103: the NUL is written at `rx_index`, the frame counted, and the command of the payload string runs
in `FRAME_READY`; both halves are one event. That the second half is the command's own row is the model's
reading (log entry 9). -/
def Obligations.EndMarkerCompletesFrame : Prop :=
  ∀ (s t : State) (b : Byte), s.ready = true → s.state = .receiving → b = s.cfg.endMarker →
    s.rxIndex < s.cfg.rxBufSize →
    t = { s with
      rxBuf := Memory.write 0x00 s.rxBuf s.rxIndex 0x00
      framesReceived := bump s.cfg s.framesReceived
      state := .frameReady } →
    exec (.rxEnd b) s = .next (finishFrame (decodePayload s.cfg t.payloadString) t) ∧
    (finishFrame (decodePayload s.cfg t.payloadString) t).state = .waitingStart ∧
    (finishFrame (decodePayload s.cfg t.payloadString) t).rxIndex = 0 ∧
    exec (.rxEnd b) s = exec (decodeCmd s.cfg t.payloadString) t

/-- R104. -/
def Obligations.PayloadByteIsStored : Prop :=
  ∀ (s : State) (b : Byte), s.ready = true → s.state = .receiving → b ≠ s.cfg.startMarker →
    b ≠ s.cfg.endMarker → s.rxIndex < s.cfg.rxBufSize - 1 →
    exec (.rxData b) s =
      .next { s with rxBuf := Memory.write 0x00 s.rxBuf s.rxIndex b, rxIndex := s.rxIndex + 1 }

/-- R105, R201. -/
def Obligations.OverflowDiscardsFrame : Prop :=
  ∀ (s : State) (b : Byte), s.ready = true → s.state = .receiving → b ≠ s.cfg.startMarker →
    b ≠ s.cfg.endMarker → s.rxIndex = s.cfg.rxBufSize - 1 →
    exec (.rxOverflow b) s =
      .next { s with
        rxOverflows := bump s.cfg s.rxOverflows
        state := .waitingStart
        rxIndex := 0 }

/-- R107: after the NUL write at `n` the payload string is the bytes before the first NUL among the `n`
bytes received. -/
def Obligations.PayloadStringIsReceivedText : Prop :=
  ∀ (s : State) (n : Nat), Memory.wf 0x00 s.rxBuf = true → n ≤ s.cfg.maxPayload →
    (s.setRxCell n 0x00).payloadString = untilNul ((List.range n).map s.rxCell)

/-- R75, R76, R100, R102, R103, R104, R107: a whole frame on the wire, from any state, does what its payload
says: the payload's bytes and a NUL go to RXBUF, whose other cells stay, the frame is counted, and the
command of the text before the first NUL is accepted or rejected. -/
def Obligations.FrameOnTheWireRunsItsPayload : Prop :=
  ∀ (s : State) (p : Text), s.ready = true → Memory.wf 0x00 s.rxBuf = true →
    p.length ≤ s.cfg.maxPayload → (∀ b ∈ p, b ≠ s.cfg.startMarker ∧ b ≠ s.cfg.endMarker) →
    ∃ m, Memory.wf 0x00 m = true ∧
      (∀ a b, p[a]? = some b → Memory.read 0x00 m a = b) ∧
      Memory.read 0x00 m p.length = 0x00 ∧
      (∀ a, p.length < a → Memory.read 0x00 m a = s.rxCell a) ∧
      (rxBytes (s.cfg.startMarker :: (p ++ [s.cfg.endMarker])) 0 s).1 =
        .next { finishFrame (decodePayload s.cfg (untilNul p)) s.countReceived with rxBuf := m }

/-- R105 corner case (c): more than `MAX_PAYLOAD` bytes after a start marker, with no end marker among the
first `MAX_PAYLOAD + 1` and no start marker at all, count one overflow, send nothing and queue nothing. The
first `MAX_PAYLOAD` of them stand in RXBUF, whose other cells stay (R104). -/
def Obligations.OverlongRunOverflowsOnce : Prop :=
  ∀ (s : State) (p rest : Text), s.ready = true → p.length = s.cfg.maxPayload + 1 →
    (∀ b ∈ p, b ≠ s.cfg.startMarker ∧ b ≠ s.cfg.endMarker) → (∀ b ∈ rest, b ≠ s.cfg.startMarker) →
    ∃ m, (rxBytes (s.cfg.startMarker :: (p ++ rest)) 0 s).1 =
        .next { s with
          rxBuf := m
          rxOverflows := bump s.cfg s.rxOverflows
          state := .waitingStart
          rxIndex := 0 } ∧
      (Memory.wf 0x00 s.rxBuf = true → Memory.wf 0x00 m = true ∧
        (∀ a b, a < s.cfg.maxPayload → p[a]? = some b → Memory.read 0x00 m a = b) ∧
        (∀ a, s.cfg.maxPayload ≤ a → Memory.read 0x00 m a = s.rxCell a))

/-- R110: over any byte stream the responses are as many as the completed frames, each is one of the
assembler's four, nothing else is put out, and `parse_errors` counts the two decode errors. Where
`frames_sent` is counted is decision D10 (log entry 17). The counters are stated for every `CTR_OVERFLOW` by
their increment, and as sums for one that wraps (R39). -/
def Obligations.OneResponsePerCompletedFrame : Prop :=
  ∀ (s t : State) (bytes : Text), s.Inv → (rxBytes bytes 0 s).1 = .next t →
    ∃ new errors, t.output = s.output ++ new ∧
      (∀ o ∈ new, ∃ k ∈ assemblerKinds, o = .tx (responseFrame s.cfg k)) ∧
      errors = responsesOf s.cfg .errInvalidCommand new + responsesOf s.cfg .errInvalidParams new ∧
      t.framesReceived = (bump s.cfg)^[new.length] s.framesReceived ∧
      t.framesSent = (bump s.cfg)^[new.length] s.framesSent ∧
      t.parseErrors = (bump s.cfg)^[errors] s.parseErrors ∧
      (s.cfg.ctrOverflow = .wrap →
        t.framesReceived = s.framesReceived + BitVec.ofNat 32 new.length ∧
        t.framesSent = s.framesSent + BitVec.ofNat 32 new.length ∧
        t.parseErrors = s.parseErrors + BitVec.ofNat 32 errors)

/-! ### The commands of a frame -/

/-- R128: `MV` needs two numbers; the first two are classified and all are kept. R136 and R137: how the tail
is scanned, in terms of `NUM_PARSE`: the maximum, the empty position, the scan failure that discards the
tokens before it, the separator and the early stop, with whitespace skipped (R17). A failed scan being
`InvalidParams` and the maximum of `MV` are decisions D7 and D8 (log entry 17); the row by itself is log
entry 9. -/
def Obligations.MoveCommandMeaning : Prop :=
  (∀ (s : State) (tail : Text), s.ready = true →
    (∀ l r more, tokenize s.cfg s.cfg.maxParams tail = some (l :: r :: more) →
      exec (.mv tail) s = .next (finishFrame (.ok ⟨0, .mv, classify l r, l :: r :: more⟩) s)) ∧
    ((∀ l r more, tokenize s.cfg s.cfg.maxParams tail ≠ some (l :: r :: more)) →
      exec (.mv tail) s = .next (finishFrame .invalidParams s))) ∧
  ∀ (c : Config) (max : Nat) (text : Text),
    tokenize c 0 text = some [] ∧
    (skipWs c text = [] → tokenize c (max + 1) text = some []) ∧
    (skipWs c text ≠ [] →
      (numParse c (skipWs c text) = none → tokenize c (max + 1) text = none) ∧
      ∀ v rest, numParse c (skipWs c text) = some (v, rest) →
        (∀ more, skipWs c rest = c.sepParam :: more →
          tokenize c (max + 1) text = (tokenize c max more).map fun vs => v :: vs) ∧
        ((∀ more, skipWs c rest ≠ c.sepParam :: more) →
          tokenize c (max + 1) text = some [v])) ∧
    ∃ white, text = white ++ skipWs c text ∧ (∀ b ∈ white, isWs c b = true) ∧
      ∀ b more, skipWs c text = b :: more → isWs c b = false

/-- R126, R127: `ST` and `GT` never fail and ignore the tail. The row by itself is log entry 9. -/
def Obligations.BareCommandsMeaning : Prop :=
  ∀ (s : State) (tail : Text), s.ready = true →
    exec (.st tail) s = .next (finishFrame (.ok ⟨0, .st, .stop, []⟩) s) ∧
    exec (.gt tail) s = .next (finishFrame (.ok ⟨0, .gt, .getTelemetry, []⟩) s)

/-- R129 to R132 with R136 and R137: `DEFAULT_SPEED` for a tail of whitespace, `InvalidParams` where no
number starts at its first other byte, and otherwise that number, whatever stands behind it. A failed scan
being `InvalidParams` and the maximum of one are decisions D7 and D8 (log entry 17); the row by itself is
log entry 9. -/
def Obligations.SpeedCommandsMeaning : Prop :=
  ∀ (s : State) (tail : Text) (i : Instr) (code : Code) (action : Action), s.ready = true →
    (i, code, action) ∈ [(Instr.sf tail, Code.sf, Action.moveForward),
      (.sb tail, .sb, .moveBackwards), (.sl tail, .sl, .moveLeft), (.sr tail, .sr, .moveRight)] →
    (skipWs s.cfg tail = [] →
      exec i s = .next (finishFrame (.ok ⟨0, code, action, [s.cfg.defaultSpeed]⟩) s)) ∧
    (skipWs s.cfg tail ≠ [] → numParse s.cfg (skipWs s.cfg tail) = none →
      exec i s = .next (finishFrame .invalidParams s)) ∧
    (∀ v rest, skipWs s.cfg tail ≠ [] → numParse s.cfg (skipWs s.cfg tail) = some (v, rest) →
      exec i s = .next (finishFrame (.ok ⟨0, code, action, [v]⟩) s))

/-- R109, R202, R203: a failed decode counts one parse error and sends the error's response; the Command
Buffer is not touched. `unknown` always fails so (R123). Counting the response in `frames_sent` is decision
D10 (R186, log entry 17); the row by itself is log entry 9. -/
def Obligations.RejectedFrame : Prop :=
  ∀ (s : State),
    (∀ p, s.ready = true → exec (.unknownCode p) s = .next { s with
      state := .waitingStart
      rxIndex := 0
      parseErrors := bump s.cfg s.parseErrors
      output := s.output ++ [.tx (responseFrame s.cfg .errInvalidCommand)]
      framesSent := bump s.cfg s.framesSent }) ∧
    finishFrame .unrecognizedCommand s = { s with
      state := .waitingStart
      rxIndex := 0
      parseErrors := bump s.cfg s.parseErrors
      output := s.output ++ [.tx (responseFrame s.cfg .errInvalidCommand)]
      framesSent := bump s.cfg s.framesSent } ∧
    finishFrame .invalidParams s = { s with
      state := .waitingStart
      rxIndex := 0
      parseErrors := bump s.cfg s.parseErrors
      output := s.output ++ [.tx (responseFrame s.cfg .errInvalidParams)]
      framesSent := bump s.cfg s.framesSent }

/-- R108: an accepted command is stored in both cases; the response is `OK`, or `ERR:BUFFER_FULL` when the
oldest command was evicted for it (R204). The slot and the id are R152's, under conflict C3; counting the
response in `frames_sent` is decision D10 (R186, log entry 17). -/
def Obligations.AcceptedFrame : Prop :=
  ∀ (s : State) (m : Command),
    (s.count ≠ s.cfg.cmdCapacity → finishFrame (.ok m) s = { s with
      state := .waitingStart
      rxIndex := 0
      ring := Memory.write blankCommand s.ring ((s.head + s.count) % s.cfg.cmdCapacity)
        { m with id := succId s.newestId }
      count := s.count + 1
      newestId := succId s.newestId
      output := s.output ++ [.tx (responseFrame s.cfg .ok)]
      framesSent := bump s.cfg s.framesSent }) ∧
    (s.count = s.cfg.cmdCapacity → finishFrame (.ok m) s = { s with
      state := .waitingStart
      rxIndex := 0
      ring := Memory.write blankCommand s.ring
        (((s.head + 1) % s.cfg.cmdCapacity + (s.count - 1)) % s.cfg.cmdCapacity)
        { m with id := succId s.newestId }
      head := (s.head + 1) % s.cfg.cmdCapacity
      count := s.count - 1 + 1
      newestId := succId s.newestId
      output := s.output ++ [.tx (responseFrame s.cfg .errBufferFull)]
      framesSent := bump s.cfg s.framesSent })

/-- R122, R123, R142: `UnrecognizedCommand` is decided by the first two characters alone, before any
parameter is looked at. R121, R124, R125: behind any leading whitespace they select the row, whose parameter
substring is what follows them, less one `SEP_CODE` directly behind them and no more. -/
def Obligations.UnrecognizedDecidedByCode : Prop :=
  (∀ (c : Config) (p : Text), decodePayload c p = .unrecognizedCommand ↔
    (skipWs c p).length < 2 ∨
      ∃ c1 c2 rest, skipWs c p = c1 :: c2 :: rest ∧ lookupCode c1 c2 = .unknown) ∧
  ∀ (c : Config) (p white rest tail : Text) (c1 c2 : Byte),
    p = white ++ c1 :: c2 :: rest → (∀ b ∈ white, isWs c b = true) → isWs c c1 = false →
    (rest = c.sepCode :: tail ∨ (rest.head? ≠ some c.sepCode ∧ rest = tail)) →
    decodeCmd c p =
      (match lookupCode c1 c2 with
        | .mv => .mv tail
        | .st => .st tail
        | .gt => .gt tail
        | .sf => .sf tail
        | .sb => .sb tail
        | .sl => .sl tail
        | .sr => .sr tail
        | .unknown => .unknownCode p) ∧
    decodePayload c p =
      (match lookupCode c1 c2 with
        | .mv => decodeMove c tail
        | .st => .ok ⟨0, .st, .stop, []⟩
        | .gt => .ok ⟨0, .gt, .getTelemetry, []⟩
        | .sf => decodeSpeed c .sf .moveForward tail
        | .sb => decodeSpeed c .sb .moveBackwards tail
        | .sl => decodeSpeed c .sl .moveLeft tail
        | .sr => decodeSpeed c .sr .moveRight tail
        | .unknown => .unrecognizedCommand)

/-- R120, R125: the id is 0. R133, R134: the action. R126 to R129, R140 (decision D8, log entry 17): the
parameters. R27, which the spec derives: never the code `unknown`. -/
def Obligations.DecodedCommandShape : Prop :=
  ∀ (c : Config) (p : Text) (m : Command), decodePayload c p = .ok m →
    m.id = 0 ∧
    match m.code with
    | .mv => 2 ≤ m.params.length ∧ m.params.length ≤ c.maxParams ∧
        m.action = classify (m.params.getD 0 0) (m.params.getD 1 0)
    | .st => m.params = [] ∧ m.action = .stop
    | .gt => m.params = [] ∧ m.action = .getTelemetry
    | .sf => m.params.length = 1 ∧ m.action = .moveForward
    | .sb => m.params.length = 1 ∧ m.action = .moveBackwards
    | .sl => m.params.length = 1 ∧ m.action = .moveLeft
    | .sr => m.params.length = 1 ∧ m.action = .moveRight
    | .unknown => False

/-- R134 and R135, on the exact values of operands that are no NaN, the two infinities among them. -/
def Obligations.ClassifierOnValues : Prop :=
  ∀ l r : F64, f64IsNan l = false → f64IsNan r = false →
    classify l r =
      (if f64Ext l = 0 ∧ f64Ext r = 0 then .stop
       else if 0 < f64Ext l ∧ 0 < f64Ext r then
         if f64Ext l = f64Ext r then .moveForward else .customMove
       else if f64Ext l < 0 ∧ f64Ext r < 0 then
         if f64Ext l = f64Ext r then .moveBackwards else .customMove
       else if f64Ext r < f64Ext l then .moveRight else .moveLeft)

/-- R135: a NaN operand makes every test false. -/
def Obligations.ClassifierOnNan : Prop :=
  ∀ l r : F64, f64IsNan l = true ∨ f64IsNan r = true → classify l r = .moveLeft

/-! ### Numbers -/

/-- R138: `NUM_PARSE` answers the longest prefix that is a number, or none if no prefix is one, except for a
text the build's table names (log entry 15), whose entry it answers. R139: its value has the number's sign
and is no NaN; it is finite exactly below the magnitude from which rounding passes the largest `f64`; a
finite one is the nearest, a tie going to the even significand; from half the smallest subnormal down it is
zero. -/
def Obligations.DecimalValueIsNearest : Prop :=
  (∀ (c : Config) (s : Text), c.numParseOther.lookup s = none →
    (numParse c s = none →
      ∀ pre post neg digits exp, s = pre ++ post → ¬ IsNumber pre neg digits exp) ∧
    ∀ v rest, numParse c s = some (v, rest) →
      ∃ pre neg digits exp, s = pre ++ rest ∧ IsNumber pre neg digits exp ∧
        v = f64OfDecimal neg digits exp ∧
        ∀ pre' post neg' digits' exp', s = pre' ++ post → IsNumber pre' neg' digits' exp' →
          pre'.length ≤ pre.length) ∧
  (∀ (c : Config) (s : Text),
    (c.numParseOther.lookup s = some none → numParse c s = none) ∧
    ∀ v n, c.numParseOther.lookup s = some (some (v, n)) → numParse c s = some (v, s.drop (max n 1))) ∧
  ∀ (neg : Bool) (digits : Nat) (exp : Int) (v : F64) (x : ℚ),
    v = f64OfDecimal neg digits exp → x = decimalValue neg digits exp →
    f64Neg v = neg ∧ f64IsNan v = false ∧
    (f64IsFinite v = true ↔ |x| < 2 ^ 1024 - 2 ^ 970) ∧
    (|x| ≤ (2 : ℚ) ^ (-1075 : Int) → f64Mag v = 0) ∧
    ∀ y : F64, f64IsFinite v = true → f64IsFinite y = true →
      |f64Value v - x| ≤ |f64Value y - x| ∧
      (|f64Value v - x| = |f64Value y - x| → f64Value v ≠ f64Value y → f64Mag v % 2 = 0)

/-- R139: integers of magnitude up to 2^53 are exact, and their decimal text is read whole (R138). -/
def Obligations.IntegersAreExact : Prop :=
  ∀ k : Int, k.natAbs ≤ 2 ^ 53 →
    f64IsFinite (f64OfInt k) = true ∧ f64Value (f64OfInt k) = (k : ℚ) ∧
    numParseDefault ((if k < 0 then [0x2D] else []) ++ natText k.natAbs) = some (f64OfInt k, [])

/-- R193: the fixed-point text of a finite value is a sign, the integer part with no leading zero, a point
and exactly `d` digits, of a multiple of `10 ^ -d` next to the value: the nearest, a tie going to the even
digit, except for a value the build's table names (log entry 16). -/
def Obligations.FixedTextIsNearest : Prop :=
  ∀ (c : Config) (v : F64) (d : Nat), f64IsFinite v = true →
    ∃ (n : Nat) (whole frac : Text),
      fmtFixed c v d = some ((if f64Neg v then [0x2D] else []) ++ (whole ++ 0x2E :: frac)) ∧
      allDigits whole = true ∧ digitsValue whole = n / 10 ^ d ∧ whole ≠ [] ∧
      (whole.head? = some 0x30 → whole = [0x30]) ∧
      allDigits frac = true ∧ digitsValue frac = n % 10 ^ d ∧ frac.length = d ∧
      |(n : ℚ) - |f64Value v| * 10 ^ d| < 1 ∧
      ((v, d) ∉ c.fmtFixedOther →
        |(n : ℚ) - |f64Value v| * 10 ^ d| ≤ 1 / 2 ∧
        (|(n : ℚ) - |f64Value v| * 10 ^ d| = 1 / 2 → n % 2 = 0))

/-- R194: `FMT_UINT` writes 1 to 10 digits, which read back as the number, with no leading zero, and `"0"`
for zero: the form that decision D30 chooses (log entry 17). The same of the decimal text of any natural number, which `FMT_FIXED` uses (R193). -/
def Obligations.UintTextReadsBack : Prop :=
  (∀ n : Word32, allDigits (fmtUint n) = true ∧ digitsValue (fmtUint n) = n.toNat ∧
    1 ≤ (fmtUint n).length ∧ (fmtUint n).length ≤ 10 ∧
    ((fmtUint n).head? = some 0x30 → fmtUint n = [0x30]) ∧ (n = 0 → fmtUint n = [0x30])) ∧
  ∀ n : Nat, scanDigits 0 0 (natText n) = (n, (natText n).length, []) ∧
    ((natText n).head? = some 0x30 → n = 0 ∧ natText n = [0x30])

/-- R143, for every parameter that one fractional digit represents: the `f64` of a number of tenths, of
either sign (ten tenths to a whole number). Encoding a command and decoding the text between the markers
gives the command back. Both conversions are the defaults (log entries 15 and 16). -/
def Obligations.CommandTextRoundTrip : Prop :=
  ∀ (m : Command) (size : Nat) (t : Text),
    (∀ v ∈ m.params, ∃ (neg : Bool) (tenths : Nat), v = f64OfDecimal neg tenths (-1)) →
    (match m.code with
      | .mv => 2 ≤ m.params.length ∧ m.params.length ≤ 10 ∧
          m.action = classify (m.params.getD 0 0) (m.params.getD 1 0)
      | .st => m.params = [] ∧ m.action = .stop
      | .gt => m.params = [] ∧ m.action = .getTelemetry
      | .sf => m.params.length = 1 ∧ m.action = .moveForward
      | .sb => m.params.length = 1 ∧ m.action = .moveBackwards
      | .sl => m.params.length = 1 ∧ m.action = .moveLeft
      | .sr => m.params.length = 1 ∧ m.action = .moveRight
      | .unknown => False) →
    encodeCommandText Config.reference m size = .text t →
    ∃ p, t = 0x53 :: (p ++ [0x45]) ∧
      decodePayload Config.reference p = .ok { m with id := 0 }

/-! ### The Command Buffer -/

/-- R158: the successor of an id is never 0, and is one more but at 65535, where it is 1. -/
def Obligations.SuccessorSkipsZero : Prop :=
  ∀ n : Word16, succId n ≠ 0 ∧ succId n ≠ n ∧
    (n.toNat < 65535 → (succId n).toNat = n.toNat + 1) ∧ (n.toNat = 65535 → (succId n).toNat = 1)

/-- R150. -/
def Obligations.BufferInit : Prop :=
  ∀ s : State, s.ready = true →
    exec .cbInit s = .next { s with head := 0, count := 0, newestId := 0 }

/-- R152: with room, and full, where the slot written is that of conflict C3 (log entry 17). Any operand is
stored, one with the code `unknown` too (log entry 22). -/
def Obligations.BufferEnqueue : Prop :=
  ∀ (s : State) (m : Command), s.ready = true →
    (s.count ≠ s.cfg.cmdCapacity → exec (.cbEnqueue m) s = .next { s with
      ring := Memory.write blankCommand s.ring ((s.head + s.count) % s.cfg.cmdCapacity)
        { m with id := succId s.newestId }
      count := s.count + 1
      newestId := succId s.newestId
      output := s.output ++ [.ret (.flag false)] }) ∧
    (s.count = s.cfg.cmdCapacity → exec (.cbEnqueue m) s = .next { s with
      ring := Memory.write blankCommand s.ring
        (((s.head + 1) % s.cfg.cmdCapacity + (s.count - 1)) % s.cfg.cmdCapacity)
        { m with id := succId s.newestId }
      head := (s.head + 1) % s.cfg.cmdCapacity
      count := s.count - 1 + 1
      newestId := succId s.newestId
      output := s.output ++ [.ret (.flag true)] })

/-- R154, R168, R205: `cb_dequeue` and `get_next_command`, empty and not. -/
def Obligations.DequeueReturnsOldest : Prop :=
  ∀ (s : State) (i : Instr), s.ready = true → i ∈ [Instr.cbDequeue, .getNextCommand] →
    (s.count = 0 → exec i s = .next { s with output := s.output ++ [.ret (.command none)] }) ∧
    (s.count ≠ 0 → s.head < s.cfg.cmdCapacity → exec i s = .next { s with
      head := (s.head + 1) % s.cfg.cmdCapacity
      count := s.count - 1
      output := s.output ++ [.ret (.command (some (s.slot s.head)))] })

/-- R155, R156, R157, R167: the queries are functions of `count` and change nothing. -/
def Obligations.QueriesAnswerCount : Prop :=
  ∀ s : State, s.ready = true →
    exec .cbIsEmpty s =
      .next { s with output := s.output ++ [.ret (.flag (decide (s.count = 0)))] } ∧
    exec .cbIsFull s =
      .next { s with output := s.output ++ [.ret (.flag (decide (s.count = s.cfg.cmdCapacity)))] } ∧
    exec .cbCount s = .next { s with output := s.output ++ [.ret (.number s.count)] } ∧
    exec .hasPendingCommand s =
      .next { s with output := s.output ++ [.ret (.flag (decide (0 < s.count)))] }

/-- R31, R151, R152, R154: the buffer is a queue that drops its oldest entry when it is full. -/
def Obligations.BufferIsBoundedFifo : Prop :=
  ∀ (s : State) (m : Command), s.cfg.ok = true → s.head < s.cfg.cmdCapacity →
    s.count ≤ s.cfg.cmdCapacity → Memory.wf blankCommand s.ring = true →
    (s.enqueue m).queue =
      (if s.count = s.cfg.cmdCapacity then s.queue.tail else s.queue) ++
        [{ m with id := succId s.newestId }] ∧
    (s.count ≠ 0 → s.queue = s.slot s.head :: s.dropOldest.queue)

/-- R159: eleven enqueues into an empty buffer of capacity 10 leave the last ten commands. -/
def Obligations.EleventhEnqueueEvictsFirst : Prop :=
  ∀ (s : State) (m : Command) (ms : List Command), s.cfg.ok = true → s.cfg.cmdCapacity = 10 →
    s.head < 10 → s.count = 0 → Memory.wf blankCommand s.ring = true → ms.length = 10 →
    ∃ t, t = (m :: ms).foldl (fun u x => u.enqueue x) s ∧ t.count = 10 ∧
      t.queue.map (fun x => { x with id := 0 }) = ms.map (fun x => { x with id := 0 })

/-! ### The session operations -/

/-- R165: every register but RXBUF and RING; nothing is sent and no pending byte is consumed (R233). That the
counters become 0 is decision D12 (log entry 17); that RXBUF and RING, which the spec leaves unspecified,
stay is log entry 3; `initialised` is log entry 4; the byte source that stays is log entry 23. R176, R237: before the first
`init_session` a step runs it as soon as it is the first event to come, whatever the registers hold. -/
def Obligations.InitSessionResets : Prop :=
  (∀ (s : State) (rest : List Request), s.initialised = false → s.inbox = .op [0x00] :: rest →
    step s = exec .initSession { s with inbox := rest }) ∧
  ∀ s : State, s.cfg.ok = true →
    exec .initSession s = .next { s with
      initialised := true
      state := .waitingStart
      rxIndex := 0
      head := 0
      count := 0
      newestId := 0
      framesReceived := 0
      framesSent := 0
      parseErrors := 0
      rxOverflows := 0 }

/-- R171, R172. -/
def Obligations.StatisticsReadAndClear : Prop :=
  ∀ s : State, s.ready = true →
    exec .getStatistics s = .next { s with
      output := s.output ++ [.ret (.statistics s.framesReceived s.framesSent s.parseErrors
        s.rxOverflows)] } ∧
    exec .resetStatistics s = .next { s with
      framesReceived := 0
      framesSent := 0
      parseErrors := 0
      rxOverflows := 0 }

/-- R169, R185, R186: `send_response`, given by its kind or by the text it sends (log entry 10), transmits the
frame and counts it in `frames_sent`, which is decision D10 (log entry 17). -/
def Obligations.ResponsesAreSent : Prop :=
  ∀ (s : State) (i : Instr) (k : Kind), s.ready = true →
    (i, k) ∈ [(Instr.sendResponse k, k), (.respOk, .ok), (.respNack, .nack),
      (.respErrInvalidCommand, .errInvalidCommand), (.respErrInvalidParams, .errInvalidParams),
      (.respErrBufferFull, .errBufferFull)] →
    exec i s = .next { s with
      output := s.output ++ [.tx (s.cfg.startMarker :: (token k ++ [s.cfg.endMarker]))]
      framesSent := bump s.cfg s.framesSent }

/-- R170, R189, R206: a finite sample is sent if its text and a NUL fit `TX_BUF_SIZE`; `send_telemetry`
answers whether it was. R190: the row `TEL` is that event, named by the text it sends (log entry 10).
Counting it in `frames_sent` is decision D10, the answer false D29, the room for a NUL D18 (log entry 17). -/
def Obligations.TelemetryIsSentIfItFits : Prop :=
  ∀ (s : State) (m : Sample) (i : Instr), s.ready = true → sampleFinite m = true →
    i ∈ [Instr.sendTelemetry m, .tel m] →
    ((telemetryFrame s.cfg m).length + 1 ≤ s.cfg.txBufSize →
      exec i s = .next { s with
        output := s.output ++ [.tx (telemetryFrame s.cfg m), .ret (.flag true)]
        framesSent := bump s.cfg s.framesSent }) ∧
    (s.cfg.txBufSize < (telemetryFrame s.cfg m).length + 1 →
      exec i s = .next { s with output := s.output ++ [.ret (.flag false)] })

/-- R173: the byte source is drained through `RxByte`, and the answer is the number of enqueues: of the
frames it answered `OK` or, evicting, `ERR:BUFFER_FULL` (R108; decision D13, log entry 17). -/
def Obligations.PollingDrainsTheSource : Prop :=
  ∀ s : State, s.ready = true → s.Inv →
    ∃ t new, (rxBytes s.source 0 { s with source := [] }).1 = .next t ∧ t.source = [] ∧
      t.output = s.output ++ new ∧
      exec .processAvailableInput s =
        .next { t with output := t.output ++ [.ret (.number (queuedResponses s.cfg new))] }

/-- R174: the polling style and the interrupt style use the same `RxByte` step: draining the bytes leaves
what one step for each byte leaves, but for the returned count of the enqueues (R173), evicting ones
included (decision D13, log entry 17). -/
def Obligations.PollingEqualsInterrupts : Prop :=
  ∀ (s : State) (bytes : Text), s.ready = true → s.Inv → s.source = [] → s.inbox = [] →
    ∃ t new, Sys2Proof.core.run bytes.length { s with inbox := bytes.map .rxByte } = .next t ∧
      t.output = s.output ++ new ∧
      exec .processAvailableInput { s with source := bytes } =
        .next { t with output := t.output ++ [.ret (.number (queuedResponses s.cfg new))] }

/-- R115, which the spec derives from R20, for its operations and for the others of the command port that
neither reset the assembler nor receive (R57): they leave the assembler and the receive buffer alone. -/
def Obligations.ConsumerLeavesAssemblerAlone : Prop :=
  ∀ (s t : State) (i : Instr), consumerOp i = true → exec i s = .next t →
    t.state = s.state ∧ t.rxIndex = s.rxIndex ∧ t.rxBuf = s.rxBuf

/-! ### The encoders and the response parser -/

/-- R187: nothing below the minimum or for the code `unknown`, whatever the parameters (log entry 16's order
of tests); for finite parameters the text if it and a NUL fit, and nothing if not. The text has `SEP_CODE`
and `SEP_PARAM` where R187 writes `:` and `,` (log entry 25). The letters' case, the room for a NUL and
nothing for `unknown` are decision D18 (log entry 17). -/
def Obligations.EncodeCommandAnswers : Prop :=
  ∀ (s : State) (m : Command) (size : Nat), s.ready = true →
    (size < s.cfg.cmdEncMin ∨ m.code = .unknown →
      exec (.encodeCommand m size) s = .next { s with
        output := s.output ++ [.ret (.text none)] }) ∧
    ((∀ v ∈ m.params, f64IsFinite v = true) → ∀ code, letters m.code = some code →
      (s.cfg.cmdEncMin ≤ size → (commandFrame s.cfg code m.params).length + 1 ≤ size →
        exec (.encodeCommand m size) s = .next { s with
          output := s.output ++ [.ret (.text (some (commandFrame s.cfg code m.params)))] }) ∧
      (size < (commandFrame s.cfg code m.params).length + 1 →
        exec (.encodeCommand m size) s = .next { s with
          output := s.output ++ [.ret (.text none)] }))

/-- R189: nothing below the minimum, whatever the sample (log entry 16's order of tests); for a finite sample
the text if it and a NUL fit, which is decision D18 (log entry 17), and nothing if not. -/
def Obligations.EncodeTelemetryAnswers : Prop :=
  ∀ (s : State) (m : Sample) (size : Nat), s.ready = true →
    (size < s.cfg.telEncMin →
      exec (.encodeTelemetry m size) s = .next { s with
        output := s.output ++ [.ret (.text none)] }) ∧
    (sampleFinite m = true →
      (s.cfg.telEncMin ≤ size → (telemetryFrame s.cfg m).length + 1 ≤ size →
        exec (.encodeTelemetry m size) s = .next { s with
          output := s.output ++ [.ret (.text (some (telemetryFrame s.cfg m)))] }) ∧
      (size < (telemetryFrame s.cfg m).length + 1 →
        exec (.encodeTelemetry m size) s = .next { s with
          output := s.output ++ [.ret (.text none)] }))

/-- R193: a value that is not finite has no text, and an encode event that must print one is refused. -/
def Obligations.NonFiniteTextIsRefused : Prop :=
  ∀ (s : State), s.ready = true →
    (∀ (m : Command) (size : Nat), s.cfg.cmdEncMin ≤ size → m.code ≠ .unknown →
      (∃ v ∈ m.params, f64IsFinite v = false) →
      exec (.encodeCommand m size) s = .refused .nonFiniteText) ∧
    (∀ (m : Sample) (size : Nat), sampleFinite m = false →
      (s.cfg.telEncMin ≤ size → exec (.encodeTelemetry m size) s = .refused .nonFiniteText) ∧
      exec (.sendTelemetry m) s = .refused .nonFiniteText ∧
      exec (.tel m) s = .refused .nonFiniteText)

/-- R185 and R191 (decision D19, log entry 17): the response encoder and the parser answer and change nothing
else. -/
def Obligations.ResponseCodecAnswers : Prop :=
  ∀ (s : State) (k : Kind) (text : Text), s.ready = true →
    exec (.encodeResponse k) s = .next { s with
      output := s.output ++ [.ret (.text (some (s.cfg.startMarker :: (token k ++
        [s.cfg.endMarker]))))] } ∧
    exec (.parseResponse text) s = .next { s with
      output := s.output ++ [.ret (.parsed (parseResponseText s.cfg text))] }

/-- R191: a token, with whitespace and at most one start marker before it and anything after it, parses as
its kind, and `TEL:` as the telemetry result (decision D19, log entry 17), so a response frame parses as its
kind; a text with none of the known tokens is a `NACK`; only a text with the token `OK` is a success. -/
def Obligations.ParsedTextGivesItsKind : Prop :=
  (∀ (c : Config) (k : Kind) (pre post : Text), isWs c c.startMarker = false →
    (∀ b ∈ pre, isWs c b = true) →
    parseResponseText c (pre ++ responseFrame c k ++ post) = .response k) ∧
  (∀ (c : Config) (pre marker word post : Text), (∀ b ∈ pre, isWs c b = true) →
    (marker = [c.startMarker] ∧ isWs c c.startMarker = false) ∨
      (marker = [] ∧ ∀ b, word.head? = some b → isWs c b = false ∧ b ≠ c.startMarker) →
    (∀ k, word = token k → parseResponseText c (pre ++ marker ++ word ++ post) = .response k) ∧
    (word = telToken → parseResponseText c (pre ++ marker ++ word ++ post) = .telemetry)) ∧
  (∀ (c : Config) (text : Text), startsWith telToken (skipStart c (skipWs c text)) = false →
    (∀ k, startsWith (token k) (skipStart c (skipWs c text)) = false) →
    parseResponseText c text = .response .nack) ∧
  (∀ (c : Config) (text : Text), parseResponseText c text = .response .ok →
    ∃ rest, skipStart c (skipWs c text) = token .ok ++ rest)

/-! ### Frames: what an instruction leaves unchanged -/

/-- R54, R104, R103: which bytes of RXBUF an instruction stores to. `process_available_input` is the one
instruction left out: its bytes are those of its `RxByte` events. -/
def Obligations.ReceiveBufferFrame : Prop :=
  ∀ (s t : State) (i : Instr), exec i s = .next t → i ≠ .processAvailableInput →
    (rxBufWriter i = false → t.rxBuf = s.rxBuf) ∧
    (rxBufWriter i = true → ∀ a, a ≠ s.rxIndex → t.rxCell a = s.rxCell a)

/-- R54, R57: which slot of RING an instruction stores to, and who changes `newest_id`. -/
def Obligations.CommandRingFrame : Prop :=
  ∀ (s t : State) (i : Instr), exec i s = .next t → i ≠ .processAvailableInput →
    (ringWriter i = false → t.ring = s.ring) ∧
    (ringWriter i = true → ∀ a, a ≠ s.storedSlot → t.slot a = s.slot a) ∧
    (ringWriter i = false → i ≠ .initSession → i ≠ .cbInit → t.newestId = s.newestId)

/-- R38: what increments each counter, each by one: `frames_received` a completed frame, `rx_overflows` an
overflow, `frames_sent` a transmitted text, `parse_errors` a frame answered with a decode error. R190: a
text that is no response is put out by `send_telemetry` alone, under either of its names. R39 and U6: what
one more is, and what `CTR_OVERFLOW` makes of it at the greatest value (log entry 18). That every transmitted
text counts in `frames_sent` is decision D10 (log entry 17). -/
def Obligations.CountersCountTheirEvents : Prop :=
  (∀ (c : Config) (n : Word32),
    (n.toNat < 2 ^ 32 - 1 → (bump c n).toNat = n.toNat + 1) ∧
    (n.toNat = 2 ^ 32 - 1 → (c.ctrOverflow = .wrap → bump c n = 0) ∧
      (c.ctrOverflow = .saturate → bump c n = n))) ∧
  ∀ (s t : State) (i : Instr), exec i s = .next t → i ≠ .processAvailableInput →
    i ≠ .initSession → i ≠ .resetStatistics →
    (((∃ b, i = .rxEnd b) ∧ t.framesReceived = bump s.cfg s.framesReceived) ∨
      ((∀ b, i ≠ .rxEnd b) ∧ t.framesReceived = s.framesReceived)) ∧
    (((∃ b, i = .rxOverflow b) ∧ t.rxOverflows = bump s.cfg s.rxOverflows) ∨
      ((∀ b, i ≠ .rxOverflow b) ∧ t.rxOverflows = s.rxOverflows)) ∧
    (∃ new, t.output = s.output ++ new ∧
      ((new.filter Output.isTx = [] ∧ t.framesSent = s.framesSent) ∨
        ((new.filter Output.isTx).length = 1 ∧ t.framesSent = bump s.cfg s.framesSent)) ∧
      t.parseErrors =
        (if frameRow i = true ∧
            (new = [.tx (responseFrame s.cfg .errInvalidCommand)] ∨
              new = [.tx (responseFrame s.cfg .errInvalidParams)])
          then bump s.cfg s.parseErrors else s.parseErrors) ∧
      ∀ text, .tx text ∈ new → (∃ k, text = responseFrame s.cfg k) ∨
        ∃ m, i = .sendTelemetry m ∨ i = .tel m)

/-- R6, R20, R176: no step changes the parameters or undoes the initialisation. R46, R173: no instruction adds
to the byte source, `process_available_input` empties it and every other leaves it; none touches the events
to come, of which a step takes at most the first (log entry 5). -/
def Obligations.StepKeepsConfiguration : Prop :=
  (∀ s t : State, step s = .next t →
    t.cfg = s.cfg ∧ (s.initialised = true → t.initialised = true) ∧
    (t.inbox = s.inbox ∨ t.inbox = s.inbox.tail) ∧
    (∀ bytes, t.source = s.source ++ bytes → bytes ≠ [] → s.inbox.head? = some (.arrive bytes))) ∧
  ∀ (s t : State) (i : Instr), exec i s = .next t →
    t.inbox = s.inbox ∧
    (i = .processAvailableInput → t.source = []) ∧ (i ≠ .processAvailableInput → t.source = s.source)

/-! ### The whole machine -/

/-- R231: the reset state is `CleanStart`, and the invariant holds in it. -/
def Obligations.ResetIsCleanStart : Prop :=
  State.reset.Inv ∧ State.reset.initialised = true ∧ State.reset.state = .waitingStart ∧
    State.reset.rxIndex = 0 ∧ State.reset.head = 0 ∧ State.reset.count = 0 ∧
    State.reset.newestId = 0 ∧ State.reset.framesReceived = 0 ∧ State.reset.framesSent = 0 ∧
    State.reset.parseErrors = 0 ∧ State.reset.rxOverflows = 0

/-- R7, R22, R23, R26, R31, R42, R69, R153: every step keeps the invariant. -/
def Obligations.StepKeepsInvariant : Prop :=
  ∀ s t : State, s.Inv → step s = .next t → t.Inv

/-- R53, R216: from a state that meets the invariant no step faults. -/
def Obligations.StepNeverFaults : Prop :=
  ∀ s : State, s.Inv → Safe (step s)

/-- R231: what RXBUF holds at and above `rx_index`, and what unqueued slots of RING hold, changes no
output, no refusal and no other register, in any step. -/
def Obligations.StaleContentsAreUnobservable : Prop :=
  ∀ s t : State, s.Inv → t.Inv → s.Alike t →
    (∃ s' t', step s = .next s' ∧ step t = .next t' ∧ s'.Alike t') ∨
      (∃ r, step s = .refused r ∧ step t = .refused r)

/-- R241: with the default markers the upper-case text of `ST` is not received as `ST`; with a lower-case
first letter it is. -/
def Obligations.UpperCaseStopIsNotReceived : Prop :=
  ∀ s : State, s.initialised = true → s.Inv → s.cfg = Config.reference →
    (∃ t, (rxBytes [0x53, 0x53, 0x54, 0x45] 0 s).1 = .next t ∧ t.queue = s.queue ∧
      t.output = s.output ++ [.tx (responseFrame s.cfg .errInvalidCommand)]) ∧
    (∃ t, (rxBytes [0x53, 0x73, 0x74, 0x45] 0 s).1 = .next t ∧
      t.queue.getLast? = some ⟨succId s.newestId, .st, .stop, []⟩)
end

