-- ==== Sys2Proof/Laws/Memory.lean ====
section
/-!
SUPPORT. The laws of a sparse space: a read after a write, and that a write keeps the canonical form.
-/

namespace Sys2Proof.Machine

variable {α : Type} [DecidableEq α] {d : α}

/-- A form that is canonical from `lo` on is canonical from any lower bound. -/
theorem Memory.wfFrom_mono {lo lo' : Nat} (h : lo' ≤ lo) {m : List (Nat × α)}
    (hm : Memory.wfFrom d lo m = true) : Memory.wfFrom d lo' m = true := by
  cases m with
  | nil => rfl
  | cons e m =>
    simp only [Memory.wfFrom, Bool.and_eq_true, decide_eq_true_eq] at hm ⊢
    exact ⟨⟨by omega, hm.1.2⟩, hm.2⟩

/-- Below its lowest address a canonical form lists nothing. -/
theorem Memory.read_below {lo a : Nat} {m : List (Nat × α)} (hm : Memory.wfFrom d lo m = true)
    (ha : a < lo) : Memory.read d m a = d := by
  induction m generalizing lo with
  | nil => rfl
  | cons e m ih =>
    simp only [Memory.wfFrom, Bool.and_eq_true, decide_eq_true_eq] at hm
    have hne : a ≠ e.1 := by omega
    simp only [Memory.read, hne, if_false]
    exact ih hm.2 (by omega)

/-- A write leaves every other address alone. -/
theorem Memory.read_write_ne {a b : Nat} (h : b ≠ a) (m : List (Nat × α)) (v : α) :
    Memory.read d (Memory.write d m a v) b = Memory.read d m b := by
  induction m with
  | nil => by_cases hv : v = d <;> simp [Memory.write, Memory.read, hv, h]
  | cons e m ih =>
    simp only [Memory.write]
    split
    · split <;> simp [Memory.read, h]
    · split
      · rename_i hae
        subst hae
        split <;> simp [Memory.read, h]
      · simp only [Memory.read, ih]

/-- A read after a write to the same address gives the value written. -/
theorem Memory.read_write_self {lo : Nat} {m : List (Nat × α)} (hm : Memory.wfFrom d lo m = true)
    (a : Nat) (v : α) : Memory.read d (Memory.write d m a v) a = v := by
  induction m generalizing lo with
  | nil => by_cases hv : v = d <;> simp [Memory.write, Memory.read, hv]
  | cons e m ih =>
    simp only [Memory.wfFrom, Bool.and_eq_true, decide_eq_true_eq] at hm
    obtain ⟨⟨_, _⟩, hm⟩ := hm
    simp only [Memory.write]
    split
    · rename_i hlt
      have hne : a ≠ e.1 := by omega
      split
      · rename_i hv
        simp only [Memory.read, hne, if_false, hv]
        exact Memory.read_below hm (by omega)
      · simp [Memory.read]
    · split
      · rename_i hae
        split
        · rename_i hv
          rw [hv]
          exact Memory.read_below hm (by omega)
        · simp [Memory.read]
      · rename_i hne
        simp only [Memory.read, hne, if_false]
        exact ih hm

/-- A write keeps the canonical form from a bound that its address respects. -/
theorem Memory.wfFrom_write {lo : Nat} {m : List (Nat × α)} (hm : Memory.wfFrom d lo m = true)
    {a : Nat} (ha : lo ≤ a) (v : α) : Memory.wfFrom d lo (Memory.write d m a v) = true := by
  induction m generalizing lo with
  | nil => by_cases hv : v = d <;> simp [Memory.write, Memory.wfFrom, hv, ha]
  | cons e m ih =>
    have hm' := hm
    simp only [Memory.wfFrom, Bool.and_eq_true, decide_eq_true_eq] at hm'
    obtain ⟨⟨hlo, hne⟩, htail⟩ := hm'
    simp only [Memory.write]
    split
    · split
      · exact hm
      · rename_i hlt hv
        simp only [Memory.wfFrom, Bool.and_eq_true, decide_eq_true_eq]
        exact ⟨⟨ha, hv⟩, ⟨⟨by omega, hne⟩, htail⟩⟩
    · split
      · rename_i hae
        split
        · exact Memory.wfFrom_mono (by omega) htail
        · rename_i hv
          simp only [Memory.wfFrom, Bool.and_eq_true, decide_eq_true_eq]
          exact ⟨⟨ha, hv⟩, hae ▸ htail⟩
      · rename_i hlt hne'
        simp only [Memory.wfFrom, Bool.and_eq_true, decide_eq_true_eq]
        exact ⟨⟨hlo, hne⟩, ih htail (by omega)⟩

/-- Every write keeps the canonical form. -/
theorem Memory.wf_write {m : List (Nat × α)} (hm : Memory.wf d m = true) (a : Nat) (v : α) :
    Memory.wf d (Memory.write d m a v) = true :=
  Memory.wfFrom_write hm (Nat.zero_le a) v

/-- A write inside a space keeps every listed address inside it. -/
theorem Memory.below_write {n : Nat} {m : List (Nat × α)} (hm : Memory.below n m = true) {a : Nat}
    (ha : a < n) (v : α) : Memory.below n (Memory.write d m a v) = true := by
  induction m with
  | nil => by_cases hv : v = d <;> simp [Memory.write, Memory.below, hv, ha]
  | cons e m ih =>
    simp only [Memory.below, List.all_cons, Bool.and_eq_true, decide_eq_true_eq] at hm ih ⊢
    simp only [Memory.write]
    split
    · split <;> simp [hm.1, hm.2, ha]
    · split
      · split <;> simp [hm.2, ha]
      · simp [hm.1, ih hm.2]

/-- Canonical forms that read alike are equal data. -/
theorem Memory.wfFrom_ext {lo : Nat} {m n : List (Nat × α)} (hm : Memory.wfFrom d lo m = true)
    (hn : Memory.wfFrom d lo n = true) (h : ∀ a, Memory.read d m a = Memory.read d n a) : m = n := by
  induction m generalizing lo n with
  | nil =>
    cases n with
    | nil => rfl
    | cons e n =>
      simp only [Memory.wfFrom, Bool.and_eq_true, decide_eq_true_eq] at hn
      exact absurd (h e.1).symm (by simpa [Memory.read] using hn.1.2)
  | cons e m ih =>
    obtain ⟨a, v⟩ := e
    have hm' := hm
    simp only [Memory.wfFrom, Bool.and_eq_true, decide_eq_true_eq] at hm
    cases n with
    | nil => exact absurd (h a) (by simpa [Memory.read] using hm.1.2)
    | cons e n =>
      obtain ⟨b, w⟩ := e
      have hn' := hn
      simp only [Memory.wfFrom, Bool.and_eq_true, decide_eq_true_eq] at hn
      have ha := h a
      have hb := h b
      rcases Nat.lt_trichotomy a b with hab | rfl | hab
      · simp only [Memory.read, if_true, Nat.ne_of_lt hab, if_false,
          Memory.read_below hn.2 (Nat.lt_succ_of_lt hab)] at ha
        exact absurd ha hm.1.2
      · simp only [Memory.read, if_true] at ha
        subst ha
        have : m = n := ih hm.2 hn.2 fun c => by
          have hc := h c
          simp only [Memory.read] at hc
          by_cases hca : c = a
          · rw [hca, Memory.read_below hm.2 (Nat.lt_succ_self a),
              Memory.read_below hn.2 (Nat.lt_succ_self a)]
          · simpa only [hca, if_false] using hc
        rw [this]
      · simp only [Memory.read, if_true, Nat.ne_of_lt hab, if_false,
          Memory.read_below hm.2 (Nat.lt_succ_of_lt hab)] at hb
        exact absurd hb.symm hn.1.2

/-- Canonical memories that read alike are equal data. -/
theorem Memory.ext {m n : List (Nat × α)} (hm : Memory.wf d m = true) (hn : Memory.wf d n = true)
    (h : ∀ a, Memory.read d m a = Memory.read d n a) : m = n :=
  Memory.wfFrom_ext hm hn h

/-- The two memories of the reset state are canonical. -/
theorem Memory.wf_reset :
    Memory.wf 0x00 State.reset.rxBuf = true ∧ Memory.wf blankCommand State.reset.ring = true :=
  ⟨rfl, rfl⟩

/-- Writing a cell keeps the canonical form. -/
theorem Memory.wf_setRxCell (s : State) (h : Memory.wf 0x00 s.rxBuf = true) (a : Nat) (b : Byte) :
    Memory.wf 0x00 (s.setRxCell a b).rxBuf = true :=
  Memory.wf_write h a b

/-- Writing a slot keeps the canonical form. -/
theorem Memory.wf_setSlot (s : State) (h : Memory.wf blankCommand s.ring = true) (a : Nat)
    (m : Command) : Memory.wf blankCommand (s.setSlot a m).ring = true :=
  Memory.wf_write h a m

end Sys2Proof.Machine
end

