-- ==== Sys2Proof/Laws/State.lean ====
section
/-!
SUPPORT. One lemma for each field of State under each named update, so that no proof unfolds a record
update.
-/

namespace Sys2Proof.Machine

variable (s : State)

@[simp] theorem State.setRxCell_cfg (a : Nat) (b : Byte) : (s.setRxCell a b).cfg = s.cfg := rfl
@[simp] theorem State.setRxCell_initialised (a : Nat) (b : Byte) :
    (s.setRxCell a b).initialised = s.initialised := rfl
@[simp] theorem State.setRxCell_state (a : Nat) (b : Byte) : (s.setRxCell a b).state = s.state := rfl
@[simp] theorem State.setRxCell_rxIndex (a : Nat) (b : Byte) : (s.setRxCell a b).rxIndex = s.rxIndex := rfl
@[simp] theorem State.setRxCell_rxBuf (a : Nat) (b : Byte) :
    (s.setRxCell a b).rxBuf = Memory.write 0x00 s.rxBuf a b := rfl
@[simp] theorem State.setRxCell_ring (a : Nat) (b : Byte) : (s.setRxCell a b).ring = s.ring := rfl
@[simp] theorem State.setRxCell_head (a : Nat) (b : Byte) : (s.setRxCell a b).head = s.head := rfl
@[simp] theorem State.setRxCell_count (a : Nat) (b : Byte) : (s.setRxCell a b).count = s.count := rfl
@[simp] theorem State.setRxCell_newestId (a : Nat) (b : Byte) : (s.setRxCell a b).newestId = s.newestId := rfl
@[simp] theorem State.setRxCell_framesReceived (a : Nat) (b : Byte) :
    (s.setRxCell a b).framesReceived = s.framesReceived := rfl
@[simp] theorem State.setRxCell_framesSent (a : Nat) (b : Byte) :
    (s.setRxCell a b).framesSent = s.framesSent := rfl
@[simp] theorem State.setRxCell_parseErrors (a : Nat) (b : Byte) :
    (s.setRxCell a b).parseErrors = s.parseErrors := rfl
@[simp] theorem State.setRxCell_rxOverflows (a : Nat) (b : Byte) :
    (s.setRxCell a b).rxOverflows = s.rxOverflows := rfl
@[simp] theorem State.setRxCell_source (a : Nat) (b : Byte) : (s.setRxCell a b).source = s.source := rfl
@[simp] theorem State.setRxCell_inbox (a : Nat) (b : Byte) : (s.setRxCell a b).inbox = s.inbox := rfl
@[simp] theorem State.setRxCell_output (a : Nat) (b : Byte) : (s.setRxCell a b).output = s.output := rfl

@[simp] theorem State.setSlot_cfg (a : Nat) (m : Command) : (s.setSlot a m).cfg = s.cfg := rfl
@[simp] theorem State.setSlot_initialised (a : Nat) (m : Command) :
    (s.setSlot a m).initialised = s.initialised := rfl
@[simp] theorem State.setSlot_state (a : Nat) (m : Command) : (s.setSlot a m).state = s.state := rfl
@[simp] theorem State.setSlot_rxIndex (a : Nat) (m : Command) : (s.setSlot a m).rxIndex = s.rxIndex := rfl
@[simp] theorem State.setSlot_rxBuf (a : Nat) (m : Command) : (s.setSlot a m).rxBuf = s.rxBuf := rfl
@[simp] theorem State.setSlot_ring (a : Nat) (m : Command) :
    (s.setSlot a m).ring = Memory.write blankCommand s.ring a m := rfl
@[simp] theorem State.setSlot_head (a : Nat) (m : Command) : (s.setSlot a m).head = s.head := rfl
@[simp] theorem State.setSlot_count (a : Nat) (m : Command) : (s.setSlot a m).count = s.count := rfl
@[simp] theorem State.setSlot_newestId (a : Nat) (m : Command) : (s.setSlot a m).newestId = s.newestId := rfl
@[simp] theorem State.setSlot_framesReceived (a : Nat) (m : Command) :
    (s.setSlot a m).framesReceived = s.framesReceived := rfl
@[simp] theorem State.setSlot_framesSent (a : Nat) (m : Command) :
    (s.setSlot a m).framesSent = s.framesSent := rfl
@[simp] theorem State.setSlot_parseErrors (a : Nat) (m : Command) :
    (s.setSlot a m).parseErrors = s.parseErrors := rfl
@[simp] theorem State.setSlot_rxOverflows (a : Nat) (m : Command) :
    (s.setSlot a m).rxOverflows = s.rxOverflows := rfl
@[simp] theorem State.setSlot_source (a : Nat) (m : Command) : (s.setSlot a m).source = s.source := rfl
@[simp] theorem State.setSlot_inbox (a : Nat) (m : Command) : (s.setSlot a m).inbox = s.inbox := rfl
@[simp] theorem State.setSlot_output (a : Nat) (m : Command) : (s.setSlot a m).output = s.output := rfl

@[simp] theorem State.answer_cfg (r : Result) : (s.answer r).cfg = s.cfg := rfl
@[simp] theorem State.answer_initialised (r : Result) : (s.answer r).initialised = s.initialised := rfl
@[simp] theorem State.answer_state (r : Result) : (s.answer r).state = s.state := rfl
@[simp] theorem State.answer_rxIndex (r : Result) : (s.answer r).rxIndex = s.rxIndex := rfl
@[simp] theorem State.answer_rxBuf (r : Result) : (s.answer r).rxBuf = s.rxBuf := rfl
@[simp] theorem State.answer_ring (r : Result) : (s.answer r).ring = s.ring := rfl
@[simp] theorem State.answer_head (r : Result) : (s.answer r).head = s.head := rfl
@[simp] theorem State.answer_count (r : Result) : (s.answer r).count = s.count := rfl
@[simp] theorem State.answer_newestId (r : Result) : (s.answer r).newestId = s.newestId := rfl
@[simp] theorem State.answer_framesReceived (r : Result) :
    (s.answer r).framesReceived = s.framesReceived := rfl
@[simp] theorem State.answer_framesSent (r : Result) : (s.answer r).framesSent = s.framesSent := rfl
@[simp] theorem State.answer_parseErrors (r : Result) : (s.answer r).parseErrors = s.parseErrors := rfl
@[simp] theorem State.answer_rxOverflows (r : Result) : (s.answer r).rxOverflows = s.rxOverflows := rfl
@[simp] theorem State.answer_source (r : Result) : (s.answer r).source = s.source := rfl
@[simp] theorem State.answer_inbox (r : Result) : (s.answer r).inbox = s.inbox := rfl
@[simp] theorem State.answer_output (r : Result) : (s.answer r).output = s.output ++ [.ret r] := rfl

@[simp] theorem State.transmit_cfg (t : Text) : (s.transmit t).cfg = s.cfg := rfl
@[simp] theorem State.transmit_initialised (t : Text) : (s.transmit t).initialised = s.initialised := rfl
@[simp] theorem State.transmit_state (t : Text) : (s.transmit t).state = s.state := rfl
@[simp] theorem State.transmit_rxIndex (t : Text) : (s.transmit t).rxIndex = s.rxIndex := rfl
@[simp] theorem State.transmit_rxBuf (t : Text) : (s.transmit t).rxBuf = s.rxBuf := rfl
@[simp] theorem State.transmit_ring (t : Text) : (s.transmit t).ring = s.ring := rfl
@[simp] theorem State.transmit_head (t : Text) : (s.transmit t).head = s.head := rfl
@[simp] theorem State.transmit_count (t : Text) : (s.transmit t).count = s.count := rfl
@[simp] theorem State.transmit_newestId (t : Text) : (s.transmit t).newestId = s.newestId := rfl
@[simp] theorem State.transmit_framesReceived (t : Text) :
    (s.transmit t).framesReceived = s.framesReceived := rfl
@[simp] theorem State.transmit_framesSent (t : Text) :
    (s.transmit t).framesSent = bump s.cfg s.framesSent := rfl
@[simp] theorem State.transmit_parseErrors (t : Text) : (s.transmit t).parseErrors = s.parseErrors := rfl
@[simp] theorem State.transmit_rxOverflows (t : Text) : (s.transmit t).rxOverflows = s.rxOverflows := rfl
@[simp] theorem State.transmit_source (t : Text) : (s.transmit t).source = s.source := rfl
@[simp] theorem State.transmit_inbox (t : Text) : (s.transmit t).inbox = s.inbox := rfl
@[simp] theorem State.transmit_output (t : Text) : (s.transmit t).output = s.output ++ [.tx t] := rfl

@[simp] theorem State.respond_cfg (k : Kind) : (s.respond k).cfg = s.cfg := rfl
@[simp] theorem State.respond_initialised (k : Kind) : (s.respond k).initialised = s.initialised := rfl
@[simp] theorem State.respond_state (k : Kind) : (s.respond k).state = s.state := rfl
@[simp] theorem State.respond_rxIndex (k : Kind) : (s.respond k).rxIndex = s.rxIndex := rfl
@[simp] theorem State.respond_rxBuf (k : Kind) : (s.respond k).rxBuf = s.rxBuf := rfl
@[simp] theorem State.respond_ring (k : Kind) : (s.respond k).ring = s.ring := rfl
@[simp] theorem State.respond_head (k : Kind) : (s.respond k).head = s.head := rfl
@[simp] theorem State.respond_count (k : Kind) : (s.respond k).count = s.count := rfl
@[simp] theorem State.respond_newestId (k : Kind) : (s.respond k).newestId = s.newestId := rfl
@[simp] theorem State.respond_framesReceived (k : Kind) :
    (s.respond k).framesReceived = s.framesReceived := rfl
@[simp] theorem State.respond_framesSent (k : Kind) :
    (s.respond k).framesSent = bump s.cfg s.framesSent := rfl
@[simp] theorem State.respond_parseErrors (k : Kind) : (s.respond k).parseErrors = s.parseErrors := rfl
@[simp] theorem State.respond_rxOverflows (k : Kind) : (s.respond k).rxOverflows = s.rxOverflows := rfl
@[simp] theorem State.respond_source (k : Kind) : (s.respond k).source = s.source := rfl
@[simp] theorem State.respond_inbox (k : Kind) : (s.respond k).inbox = s.inbox := rfl
@[simp] theorem State.respond_output (k : Kind) :
    (s.respond k).output = s.output ++ [.tx (responseFrame s.cfg k)] := rfl

@[simp] theorem State.countReceived_cfg : (s.countReceived).cfg = s.cfg := rfl
@[simp] theorem State.countReceived_initialised : (s.countReceived).initialised = s.initialised := rfl
@[simp] theorem State.countReceived_state : (s.countReceived).state = s.state := rfl
@[simp] theorem State.countReceived_rxIndex : (s.countReceived).rxIndex = s.rxIndex := rfl
@[simp] theorem State.countReceived_rxBuf : (s.countReceived).rxBuf = s.rxBuf := rfl
@[simp] theorem State.countReceived_ring : (s.countReceived).ring = s.ring := rfl
@[simp] theorem State.countReceived_head : (s.countReceived).head = s.head := rfl
@[simp] theorem State.countReceived_count : (s.countReceived).count = s.count := rfl
@[simp] theorem State.countReceived_newestId : (s.countReceived).newestId = s.newestId := rfl
@[simp] theorem State.countReceived_framesReceived :
    (s.countReceived).framesReceived = bump s.cfg s.framesReceived := rfl
@[simp] theorem State.countReceived_framesSent : (s.countReceived).framesSent = s.framesSent := rfl
@[simp] theorem State.countReceived_parseErrors : (s.countReceived).parseErrors = s.parseErrors := rfl
@[simp] theorem State.countReceived_rxOverflows : (s.countReceived).rxOverflows = s.rxOverflows := rfl
@[simp] theorem State.countReceived_source : (s.countReceived).source = s.source := rfl
@[simp] theorem State.countReceived_inbox : (s.countReceived).inbox = s.inbox := rfl
@[simp] theorem State.countReceived_output : (s.countReceived).output = s.output := rfl

@[simp] theorem State.countParseError_cfg : (s.countParseError).cfg = s.cfg := rfl
@[simp] theorem State.countParseError_initialised : (s.countParseError).initialised = s.initialised := rfl
@[simp] theorem State.countParseError_state : (s.countParseError).state = s.state := rfl
@[simp] theorem State.countParseError_rxIndex : (s.countParseError).rxIndex = s.rxIndex := rfl
@[simp] theorem State.countParseError_rxBuf : (s.countParseError).rxBuf = s.rxBuf := rfl
@[simp] theorem State.countParseError_ring : (s.countParseError).ring = s.ring := rfl
@[simp] theorem State.countParseError_head : (s.countParseError).head = s.head := rfl
@[simp] theorem State.countParseError_count : (s.countParseError).count = s.count := rfl
@[simp] theorem State.countParseError_newestId : (s.countParseError).newestId = s.newestId := rfl
@[simp] theorem State.countParseError_framesReceived :
    (s.countParseError).framesReceived = s.framesReceived := rfl
@[simp] theorem State.countParseError_framesSent : (s.countParseError).framesSent = s.framesSent := rfl
@[simp] theorem State.countParseError_parseErrors :
    (s.countParseError).parseErrors = bump s.cfg s.parseErrors := rfl
@[simp] theorem State.countParseError_rxOverflows : (s.countParseError).rxOverflows = s.rxOverflows := rfl
@[simp] theorem State.countParseError_source : (s.countParseError).source = s.source := rfl
@[simp] theorem State.countParseError_inbox : (s.countParseError).inbox = s.inbox := rfl
@[simp] theorem State.countParseError_output : (s.countParseError).output = s.output := rfl

@[simp] theorem State.countOverflow_cfg : (s.countOverflow).cfg = s.cfg := rfl
@[simp] theorem State.countOverflow_initialised : (s.countOverflow).initialised = s.initialised := rfl
@[simp] theorem State.countOverflow_state : (s.countOverflow).state = s.state := rfl
@[simp] theorem State.countOverflow_rxIndex : (s.countOverflow).rxIndex = s.rxIndex := rfl
@[simp] theorem State.countOverflow_rxBuf : (s.countOverflow).rxBuf = s.rxBuf := rfl
@[simp] theorem State.countOverflow_ring : (s.countOverflow).ring = s.ring := rfl
@[simp] theorem State.countOverflow_head : (s.countOverflow).head = s.head := rfl
@[simp] theorem State.countOverflow_count : (s.countOverflow).count = s.count := rfl
@[simp] theorem State.countOverflow_newestId : (s.countOverflow).newestId = s.newestId := rfl
@[simp] theorem State.countOverflow_framesReceived :
    (s.countOverflow).framesReceived = s.framesReceived := rfl
@[simp] theorem State.countOverflow_framesSent : (s.countOverflow).framesSent = s.framesSent := rfl
@[simp] theorem State.countOverflow_parseErrors : (s.countOverflow).parseErrors = s.parseErrors := rfl
@[simp] theorem State.countOverflow_rxOverflows :
    (s.countOverflow).rxOverflows = bump s.cfg s.rxOverflows := rfl
@[simp] theorem State.countOverflow_source : (s.countOverflow).source = s.source := rfl
@[simp] theorem State.countOverflow_inbox : (s.countOverflow).inbox = s.inbox := rfl
@[simp] theorem State.countOverflow_output : (s.countOverflow).output = s.output := rfl

@[simp] theorem State.clearCounters_cfg : (s.clearCounters).cfg = s.cfg := rfl
@[simp] theorem State.clearCounters_initialised : (s.clearCounters).initialised = s.initialised := rfl
@[simp] theorem State.clearCounters_state : (s.clearCounters).state = s.state := rfl
@[simp] theorem State.clearCounters_rxIndex : (s.clearCounters).rxIndex = s.rxIndex := rfl
@[simp] theorem State.clearCounters_rxBuf : (s.clearCounters).rxBuf = s.rxBuf := rfl
@[simp] theorem State.clearCounters_ring : (s.clearCounters).ring = s.ring := rfl
@[simp] theorem State.clearCounters_head : (s.clearCounters).head = s.head := rfl
@[simp] theorem State.clearCounters_count : (s.clearCounters).count = s.count := rfl
@[simp] theorem State.clearCounters_newestId : (s.clearCounters).newestId = s.newestId := rfl
@[simp] theorem State.clearCounters_framesReceived : (s.clearCounters).framesReceived = 0 := rfl
@[simp] theorem State.clearCounters_framesSent : (s.clearCounters).framesSent = 0 := rfl
@[simp] theorem State.clearCounters_parseErrors : (s.clearCounters).parseErrors = 0 := rfl
@[simp] theorem State.clearCounters_rxOverflows : (s.clearCounters).rxOverflows = 0 := rfl
@[simp] theorem State.clearCounters_source : (s.clearCounters).source = s.source := rfl
@[simp] theorem State.clearCounters_inbox : (s.clearCounters).inbox = s.inbox := rfl
@[simp] theorem State.clearCounters_output : (s.clearCounters).output = s.output := rfl

@[simp] theorem State.settle_cfg : (s.settle).cfg = s.cfg := rfl
@[simp] theorem State.settle_initialised : (s.settle).initialised = s.initialised := rfl
@[simp] theorem State.settle_state : (s.settle).state = .waitingStart := rfl
@[simp] theorem State.settle_rxIndex : (s.settle).rxIndex = 0 := rfl
@[simp] theorem State.settle_rxBuf : (s.settle).rxBuf = s.rxBuf := rfl
@[simp] theorem State.settle_ring : (s.settle).ring = s.ring := rfl
@[simp] theorem State.settle_head : (s.settle).head = s.head := rfl
@[simp] theorem State.settle_count : (s.settle).count = s.count := rfl
@[simp] theorem State.settle_newestId : (s.settle).newestId = s.newestId := rfl
@[simp] theorem State.settle_framesReceived : (s.settle).framesReceived = s.framesReceived := rfl
@[simp] theorem State.settle_framesSent : (s.settle).framesSent = s.framesSent := rfl
@[simp] theorem State.settle_parseErrors : (s.settle).parseErrors = s.parseErrors := rfl
@[simp] theorem State.settle_rxOverflows : (s.settle).rxOverflows = s.rxOverflows := rfl
@[simp] theorem State.settle_source : (s.settle).source = s.source := rfl
@[simp] theorem State.settle_inbox : (s.settle).inbox = s.inbox := rfl
@[simp] theorem State.settle_output : (s.settle).output = s.output := rfl

@[simp] theorem State.openFrame_cfg : (s.openFrame).cfg = s.cfg := rfl
@[simp] theorem State.openFrame_initialised : (s.openFrame).initialised = s.initialised := rfl
@[simp] theorem State.openFrame_state : (s.openFrame).state = .receiving := rfl
@[simp] theorem State.openFrame_rxIndex : (s.openFrame).rxIndex = 0 := rfl
@[simp] theorem State.openFrame_rxBuf : (s.openFrame).rxBuf = s.rxBuf := rfl
@[simp] theorem State.openFrame_ring : (s.openFrame).ring = s.ring := rfl
@[simp] theorem State.openFrame_head : (s.openFrame).head = s.head := rfl
@[simp] theorem State.openFrame_count : (s.openFrame).count = s.count := rfl
@[simp] theorem State.openFrame_newestId : (s.openFrame).newestId = s.newestId := rfl
@[simp] theorem State.openFrame_framesReceived : (s.openFrame).framesReceived = s.framesReceived := rfl
@[simp] theorem State.openFrame_framesSent : (s.openFrame).framesSent = s.framesSent := rfl
@[simp] theorem State.openFrame_parseErrors : (s.openFrame).parseErrors = s.parseErrors := rfl
@[simp] theorem State.openFrame_rxOverflows : (s.openFrame).rxOverflows = s.rxOverflows := rfl
@[simp] theorem State.openFrame_source : (s.openFrame).source = s.source := rfl
@[simp] theorem State.openFrame_inbox : (s.openFrame).inbox = s.inbox := rfl
@[simp] theorem State.openFrame_output : (s.openFrame).output = s.output := rfl

@[simp] theorem State.cbInit_cfg : (s.cbInit).cfg = s.cfg := rfl
@[simp] theorem State.cbInit_initialised : (s.cbInit).initialised = s.initialised := rfl
@[simp] theorem State.cbInit_state : (s.cbInit).state = s.state := rfl
@[simp] theorem State.cbInit_rxIndex : (s.cbInit).rxIndex = s.rxIndex := rfl
@[simp] theorem State.cbInit_rxBuf : (s.cbInit).rxBuf = s.rxBuf := rfl
@[simp] theorem State.cbInit_ring : (s.cbInit).ring = s.ring := rfl
@[simp] theorem State.cbInit_head : (s.cbInit).head = 0 := rfl
@[simp] theorem State.cbInit_count : (s.cbInit).count = 0 := rfl
@[simp] theorem State.cbInit_newestId : (s.cbInit).newestId = 0 := rfl
@[simp] theorem State.cbInit_framesReceived : (s.cbInit).framesReceived = s.framesReceived := rfl
@[simp] theorem State.cbInit_framesSent : (s.cbInit).framesSent = s.framesSent := rfl
@[simp] theorem State.cbInit_parseErrors : (s.cbInit).parseErrors = s.parseErrors := rfl
@[simp] theorem State.cbInit_rxOverflows : (s.cbInit).rxOverflows = s.rxOverflows := rfl
@[simp] theorem State.cbInit_source : (s.cbInit).source = s.source := rfl
@[simp] theorem State.cbInit_inbox : (s.cbInit).inbox = s.inbox := rfl
@[simp] theorem State.cbInit_output : (s.cbInit).output = s.output := rfl

@[simp] theorem State.dropOldest_cfg : (s.dropOldest).cfg = s.cfg := rfl
@[simp] theorem State.dropOldest_initialised : (s.dropOldest).initialised = s.initialised := rfl
@[simp] theorem State.dropOldest_state : (s.dropOldest).state = s.state := rfl
@[simp] theorem State.dropOldest_rxIndex : (s.dropOldest).rxIndex = s.rxIndex := rfl
@[simp] theorem State.dropOldest_rxBuf : (s.dropOldest).rxBuf = s.rxBuf := rfl
@[simp] theorem State.dropOldest_ring : (s.dropOldest).ring = s.ring := rfl
@[simp] theorem State.dropOldest_head : (s.dropOldest).head = (s.head + 1) % s.cfg.cmdCapacity := rfl
@[simp] theorem State.dropOldest_count : (s.dropOldest).count = s.count - 1 := rfl
@[simp] theorem State.dropOldest_newestId : (s.dropOldest).newestId = s.newestId := rfl
@[simp] theorem State.dropOldest_framesReceived : (s.dropOldest).framesReceived = s.framesReceived := rfl
@[simp] theorem State.dropOldest_framesSent : (s.dropOldest).framesSent = s.framesSent := rfl
@[simp] theorem State.dropOldest_parseErrors : (s.dropOldest).parseErrors = s.parseErrors := rfl
@[simp] theorem State.dropOldest_rxOverflows : (s.dropOldest).rxOverflows = s.rxOverflows := rfl
@[simp] theorem State.dropOldest_source : (s.dropOldest).source = s.source := rfl
@[simp] theorem State.dropOldest_inbox : (s.dropOldest).inbox = s.inbox := rfl
@[simp] theorem State.dropOldest_output : (s.dropOldest).output = s.output := rfl

@[simp] theorem State.append_cfg (m : Command) : (s.append m).cfg = s.cfg := rfl
@[simp] theorem State.append_initialised (m : Command) : (s.append m).initialised = s.initialised := rfl
@[simp] theorem State.append_state (m : Command) : (s.append m).state = s.state := rfl
@[simp] theorem State.append_rxIndex (m : Command) : (s.append m).rxIndex = s.rxIndex := rfl
@[simp] theorem State.append_rxBuf (m : Command) : (s.append m).rxBuf = s.rxBuf := rfl
@[simp] theorem State.append_ring (m : Command) : (s.append m).ring = 
      Memory.write blankCommand s.ring ((s.head + s.count) % s.cfg.cmdCapacity)
        { m with id := succId s.newestId } := rfl
@[simp] theorem State.append_head (m : Command) : (s.append m).head = s.head := rfl
@[simp] theorem State.append_count (m : Command) : (s.append m).count = s.count + 1 := rfl
@[simp] theorem State.append_newestId (m : Command) : (s.append m).newestId = succId s.newestId := rfl
@[simp] theorem State.append_framesReceived (m : Command) :
    (s.append m).framesReceived = s.framesReceived := rfl
@[simp] theorem State.append_framesSent (m : Command) : (s.append m).framesSent = s.framesSent := rfl
@[simp] theorem State.append_parseErrors (m : Command) : (s.append m).parseErrors = s.parseErrors := rfl
@[simp] theorem State.append_rxOverflows (m : Command) : (s.append m).rxOverflows = s.rxOverflows := rfl
@[simp] theorem State.append_source (m : Command) : (s.append m).source = s.source := rfl
@[simp] theorem State.append_inbox (m : Command) : (s.append m).inbox = s.inbox := rfl
@[simp] theorem State.append_output (m : Command) : (s.append m).output = s.output := rfl

end Sys2Proof.Machine
end

