-- ==== Sys2Proof/Laws/Ops.lean ====
section
/-!
SUPPORT. One lemma for each shared operation that says once what it can do, for the provers to cite instead
of unfolding the operation.
-/

namespace Sys2Proof.Machine

/-! ### The wrappers -/

/-- Readiness in its two parts. -/
theorem ready_iff {s : State} : s.ready = true ↔ s.cfg.ok = true ∧ s.initialised = true := by
  simp [State.ready]

/-- A frame's command waits in an initialised session in `FRAME_READY`, and in no other state. -/
theorem frameWaiting_iff {s : State} :
    s.frameWaiting = true ↔ s.initialised = true ∧ s.state = .frameReady := by
  simp [State.frameWaiting]

/-- Otherwise the next event comes from the inbox. -/
theorem frameWaiting_eq_false {s : State} :
    s.frameWaiting = false ↔ s.initialised = false ∨ s.state ≠ .frameReady := by
  unfold State.frameWaiting
  cases s.initialised <;> simp

/-- A ready event is its own outcome. -/
theorem whenReady_of_ready {s : State} (h : s.ready = true) (o : Out) : whenReady s o = o := by
  obtain ⟨hc, hi⟩ := ready_iff.mp h
  simp [whenReady, configured, hc, hi]

/-- An event that answers a next state was ready. -/
theorem whenReady_next {s t : State} {o : Out} :
    whenReady s o = .next t ↔ s.ready = true ∧ o = .next t := by
  unfold whenReady configured State.ready
  cases s.cfg.ok <;> cases s.initialised <;> simp

/-- A ready event may fault; one that is not ready is refused. -/
theorem whenReady_fault {s : State} {o : Out} {r : Fault} :
    whenReady s o = .fault r ↔ s.ready = true ∧ o = .fault r := by
  unfold whenReady configured State.ready
  cases s.cfg.ok <;> cases s.initialised <;> simp

/-- A configured event that answers a next state has a configuration of R7. -/
theorem configured_next {s t : State} {o : Out} :
    configured s o = .next t ↔ s.cfg.ok = true ∧ o = .next t := by
  unfold configured
  cases s.cfg.ok <;> simp

/-- A received-byte row that answers a next state was selected. -/
theorem selected_next {s t : State} {i : Instr} {b : Byte} {o : Out} :
    selected s i b o = .next t ↔ decodeRx (s.rxWord b) b = .instr i ∧ o = .next t := by
  unfold selected
  split <;> simp_all

/-- A received-byte row faults only where it was selected. -/
theorem selected_fault {s : State} {i : Instr} {b : Byte} {o : Out} {r : Fault} :
    selected s i b o = .fault r ↔ decodeRx (s.rxWord b) b = .instr i ∧ o = .fault r := by
  unfold selected
  split <;> simp_all

/-- Two operations answer a next state where both do. -/
theorem andThen_next {o : Out} {k : State → Out} {t : State} :
    andThen o k = .next t ↔ ∃ u, o = .next u ∧ k u = .next t := by
  cases o <;> simp [andThen]

/-- Two operations fault where the first does, or the second after it. -/
theorem andThen_fault {o : Out} {k : State → Out} {r : Fault} :
    andThen o k = .fault r ↔ o = .fault r ∨ ∃ u, o = .next u ∧ k u = .fault r := by
  cases o <;> simp [andThen]

/-! ### The configuration's functions (R6, R39) -/

/-- A text the build's table does not name is read by the default (R138, R139). -/
theorem numParse_default {c : Config} {s : Text} (h : c.numParseOther.lookup s = none) :
    numParse c s = numParseDefault s := by
  simp [numParse, h]

/-- A value the build's table does not name is rounded to the nearest multiple (R193). -/
theorem fixedMultiple_default {c : Config} {v : F64} {d : Nat} (h : (v, d) ∉ c.fmtFixedOther) :
    fixedMultiple c v d =
      roundHalfEven (scaledExact (f64Mag v) d).1 (scaledExact (f64Mag v) d).2 := by
  simp [fixedMultiple, h]

/-- `FMT_FIXED` has a text exactly for the finite values (R193, item U9). -/
theorem fmtFixed_isSome {c : Config} {v : F64} {d : Nat} :
    (fmtFixed c v d).isSome = f64IsFinite v := by
  unfold fmtFixed
  split <;> simp_all

/-- Below its greatest value a counter goes up by one, whatever `CTR_OVERFLOW` is. -/
theorem bump_of_ne {c : Config} {n : Word32} (h : n ≠ 0xFFFFFFFF) : bump c n = n + 1 := by
  unfold bump
  split <;> simp_all

/-! ### The operations -/

/-- The first half of `RX_END` (R103). -/
theorem closeFrame_next {s t : State} : closeFrame s = .next t ↔
    s.rxIndex < s.cfg.rxBufSize ∧
      t = { (s.setRxCell s.rxIndex 0x00).countReceived with state := .frameReady } := by
  unfold closeFrame
  split <;> simp_all [eq_comm]

/-- A dequeue (R154): empty, or the oldest command. -/
theorem dequeue_next {s t : State} : dequeue s = .next t ↔
    (s.count = 0 ∧ t = s.answer (.command none)) ∨
      (s.count ≠ 0 ∧ s.head < s.cfg.cmdCapacity ∧
        t = s.dropOldest.answer (.command (some (s.slot s.head)))) := by
  unfold dequeue raise
  split
  · simp_all [eq_comm]
  · split <;> simp_all [eq_comm]

/-- A dequeue faults only on an index outside RING. -/
theorem dequeue_fault {s : State} {r : Fault} :
    dequeue s = .fault r → s.count ≠ 0 ∧ s.cfg.cmdCapacity ≤ s.head := by
  unfold dequeue
  split
  · simp
  · split <;> simp_all

/-- An encoder's answer (R187, R189). -/
theorem answerText_next {e : Encoded} {s t : State} : answerText e s = .next t ↔
    (∃ x, e = .text x ∧ t = s.answer (.text (some x))) ∨
      (e = .noOutput ∧ t = s.answer (.text none)) := by
  cases e <;> simp [answerText, raise, eq_comm]

/-- A sample is sent, or nothing happens (R170, R190). -/
theorem sendSample_next {m : Sample} {s t : State} : sendSample m s = .next t ↔
    (∃ x, encodeTelemetryText s.cfg m s.cfg.txBufSize = .text x ∧ t = s.transmit x) ∨
      (encodeTelemetryText s.cfg m s.cfg.txBufSize = .noOutput ∧ t = s) := by
  unfold sendSample raise
  cases encodeTelemetryText s.cfg m s.cfg.txBufSize <;> simp [eq_comm]

/-- `send_telemetry` (R170): the text is sent and counted and the answer is true, or nothing is sent and the
answer is false. -/
theorem sendTelemetry_next {m : Sample} {s t : State} : sendTelemetry m s = .next t ↔
    (∃ x, encodeTelemetryText s.cfg m s.cfg.txBufSize = .text x ∧
        t = (s.transmit x).answer (.flag true)) ∨
      (encodeTelemetryText s.cfg m s.cfg.txBufSize = .noOutput ∧ t = s.answer (.flag false)) := by
  unfold sendTelemetry sendSample sampleFits raise
  cases encodeTelemetryText s.cfg m s.cfg.txBufSize <;> simp [andThen, eq_comm]

/-- No encoder and no transmission faults. -/
theorem answerText_no_fault {e : Encoded} {s : State} {r : Fault} : answerText e s ≠ .fault r := by
  cases e <;> simp [answerText]

theorem sendSample_no_fault {m : Sample} {s : State} {r : Fault} : sendSample m s ≠ .fault r := by
  unfold sendSample
  split <;> simp

theorem sendTelemetry_no_fault {m : Sample} {s : State} {r : Fault} : sendTelemetry m s ≠ .fault r := by
  unfold sendTelemetry sendSample
  split <;> simp [andThen]

/-- An enqueue appends, after the oldest command is dropped from a full buffer (R152). -/
theorem enqueue_cases (m : Command) (s : State) :
    (s.count = s.cfg.cmdCapacity ∧ s.enqueue m = s.dropOldest.append m) ∨
      (s.count ≠ s.cfg.cmdCapacity ∧ s.enqueue m = s.append m) := by
  unfold State.enqueue State.isFull
  by_cases h : s.count = s.cfg.cmdCapacity <;> simp [h]

/-- What a completed frame does (R103, R108, R109), each case in the buffer's and the sender's own words. -/
theorem finishFrame_cases (r : Payload) (s : State) :
    (∃ m, r = .ok m ∧ s.count = s.cfg.cmdCapacity ∧
        finishFrame r s = (s.settle.dropOldest.append m).respond .errBufferFull) ∨
      (∃ m, r = .ok m ∧ s.count ≠ s.cfg.cmdCapacity ∧
        finishFrame r s = (s.settle.append m).respond .ok) ∨
      (r = .unrecognizedCommand ∧
        finishFrame r s = s.settle.countParseError.respond .errInvalidCommand) ∨
      (r = .invalidParams ∧
        finishFrame r s = s.settle.countParseError.respond .errInvalidParams) := by
  cases r with
  | ok m =>
    by_cases h : s.count = s.cfg.cmdCapacity
    · exact .inl ⟨m, rfl, h, by simp [finishFrame, frameAccept, State.isFull, State.enqueue, raise, h]⟩
    · exact .inr (.inl ⟨m, rfl, h, by simp [finishFrame, frameAccept, State.isFull, State.enqueue, h]⟩)
  | unrecognizedCommand => exact .inr (.inr (.inl ⟨rfl, rfl⟩))
  | invalidParams => exact .inr (.inr (.inr ⟨rfl, rfl⟩))

/-- What a completed frame leaves alone, and where it leaves the assembler. -/
theorem finishFrame_frame (r : Payload) (s : State) :
    (finishFrame r s).cfg = s.cfg ∧ (finishFrame r s).initialised = s.initialised ∧
      (finishFrame r s).state = .waitingStart ∧ (finishFrame r s).rxIndex = 0 ∧
      (finishFrame r s).rxBuf = s.rxBuf ∧ (finishFrame r s).framesReceived = s.framesReceived ∧
      (finishFrame r s).rxOverflows = s.rxOverflows ∧ (finishFrame r s).source = s.source ∧
      (finishFrame r s).inbox = s.inbox := by
  obtain ⟨m, -, -, h⟩ | ⟨m, -, -, h⟩ | ⟨-, h⟩ | ⟨-, h⟩ := finishFrame_cases r s <;>
    rw [h] <;> simp [State.respond]

/-! ### The command of a payload -/

/-- The command of a payload, run: its decode result goes to the completed frame (R120, R142). -/
theorem runPayload_eq (p : Text) (s : State) :
    runPayload p s = whenReady s (.next (finishFrame (decodePayload s.cfg p) s)) := by
  unfold runPayload decodePayload
  obtain ⟨c, tail⟩ := splitPayload s.cfg p
  cases c <;> rfl

/-- The instruction that a payload decodes to does what `RX_END` does with the payload. -/
theorem exec_decodeCmd (p : Text) (s : State) : exec (decodeCmd s.cfg p) s = runPayload p s := by
  unfold runPayload decodeCmd
  obtain ⟨c, tail⟩ := splitPayload s.cfg p
  cases c <;> rfl

/-- `RX_END` that answers a next state (R103). -/
theorem execRxEnd_next {b : Byte} {s t : State} : execRxEnd b s = .next t ↔
    s.ready = true ∧ decodeRx (s.rxWord b) b = .instr (.rxEnd b) ∧ s.rxIndex < s.cfg.rxBufSize ∧
      ∃ u, u = { (s.setRxCell s.rxIndex 0x00).countReceived with state := .frameReady } ∧
        t = finishFrame (decodePayload u.cfg u.payloadString) u := by
  unfold execRxEnd
  rw [whenReady_next, selected_next, andThen_next]
  constructor
  · rintro ⟨hr, hd, u, hc, h⟩
    obtain ⟨hi, rfl⟩ := closeFrame_next.mp hc
    rw [runPayload_eq, whenReady_next] at h
    exact ⟨hr, hd, hi, _, rfl, by simpa [eq_comm] using h.2⟩
  · rintro ⟨hr, hd, hi, u, rfl, rfl⟩
    refine ⟨hr, hd, _, closeFrame_next.mpr ⟨hi, rfl⟩, ?_⟩
    rw [runPayload_eq, whenReady_of_ready (by simpa [State.ready] using hr)]

/-! ### Placing -/

/-- Storing a text keeps the canonical form of RXBUF. -/
theorem wf_storeText (p : Text) {m : List Host.Cell} (h : Memory.wf 0x00 m = true) (a : Nat) :
    Memory.wf 0x00 (storeText m a p) = true := by
  induction p generalizing m a with
  | nil => exact h
  | cons b p ih => exact ih (Memory.wf_write h a b) (a + 1)

/-! ### Received bytes -/

/-- What a received byte can do (R100 to R106). -/
theorem rxByte_next {b : Byte} {s t : State} (h : rxByte b s = .next t) :
    s.ready = true ∧
      ((s.state = .waitingStart ∧ b = s.cfg.startMarker ∧ t = s.openFrame) ∨
        (s.state = .waitingStart ∧ b ≠ s.cfg.startMarker ∧ t = s) ∨
        (s.state ≠ .waitingStart ∧ b = s.cfg.startMarker ∧ t = s.openFrame) ∨
        (s.state ≠ .waitingStart ∧ b ≠ s.cfg.startMarker ∧ b = s.cfg.endMarker ∧
          execRxEnd b s = .next t) ∨
        (s.state ≠ .waitingStart ∧ b ≠ s.cfg.startMarker ∧ b ≠ s.cfg.endMarker ∧
          s.rxIndex < s.cfg.rxBufSize - 1 ∧
          t = { s.setRxCell s.rxIndex b with rxIndex := s.rxIndex + 1 }) ∨
        (s.state ≠ .waitingStart ∧ b ≠ s.cfg.startMarker ∧ b ≠ s.cfg.endMarker ∧
          s.cfg.rxBufSize - 1 ≤ s.rxIndex ∧ t = s.countOverflow.settle)) := by
  unfold rxByte at h
  split at h
  · rename_i hs
    split at h <;> rename_i hb
    · obtain ⟨hr, h⟩ := whenReady_next.mp h
      exact ⟨hr, .inl ⟨hs, hb, by simpa [eq_comm] using (selected_next.mp h).2⟩⟩
    · obtain ⟨hr, h⟩ := whenReady_next.mp h
      exact ⟨hr, .inr (.inl ⟨hs, hb, by simpa [eq_comm] using (selected_next.mp h).2⟩)⟩
  · rename_i hs
    split at h
    · rename_i hb
      obtain ⟨hr, h⟩ := whenReady_next.mp h
      exact ⟨hr, .inr (.inr (.inl ⟨hs, hb, by simpa [eq_comm] using (selected_next.mp h).2⟩))⟩
    · rename_i hb
      split at h
      · rename_i he
        exact ⟨(whenReady_next.mp h).1, .inr (.inr (.inr (.inl ⟨hs, hb, he, h⟩)))⟩
      · rename_i he
        split at h
        · rename_i hi
          obtain ⟨hr, h⟩ := whenReady_next.mp h
          exact ⟨hr, .inr (.inr (.inr (.inr (.inl
            ⟨hs, hb, he, hi, by simpa [eq_comm] using (selected_next.mp h).2⟩))))⟩
        · rename_i hi
          obtain ⟨hr, h⟩ := whenReady_next.mp h
          exact ⟨hr, .inr (.inr (.inr (.inr (.inr
            ⟨hs, hb, he, by omega, by simpa [eq_comm, raise] using (selected_next.mp h).2⟩))))⟩

/-- What every received byte keeps, a sequence of them keeps. -/
theorem rxBytes_induct {P : State → State → Prop} (refl : ∀ s, P s s)
    (step : ∀ s t u b, P s t → rxByte b t = .next u → P s u) {bytes : Text} {n : Nat} {s t : State}
    (h : (rxBytes bytes n s).1 = .next t) : P s t := by
  suffices ∀ (bytes : Text) (n : Nat) (u : State), P s u → (rxBytes bytes n u).1 = .next t → P s t from
    this bytes n s (refl s) h
  intro bytes
  induction bytes with
  | nil => intro n u hp hu; simp only [rxBytes, Host.Outcome.next.injEq] at hu; exact hu ▸ hp
  | cons b bs ih =>
    intro n u hp hu
    simp only [rxBytes] at hu
    split at hu
    · rename_i v hv
      exact ih _ v (step s u v b hp hv) hu
    · cases hu
    · cases hu

/-- `process_available_input` that answers a next state: the drained state, with the count (R173). -/
theorem execProcessAvailableInput_next {s t : State} : execProcessAvailableInput s = .next t ↔
    s.ready = true ∧ ∃ u, (rxBytes s.source 0 { s with source := [] }).1 = .next u ∧
      t = u.answer (.number (rxBytes s.source 0 { s with source := [] }).2) := by
  unfold execProcessAvailableInput
  rw [whenReady_next]
  refine and_congr_right fun _ => ?_
  rcases rxBytes s.source 0 { s with source := [] } with ⟨o, n⟩
  simp only [andThen_next, Host.Outcome.next.injEq, @eq_comm _ t]

end Sys2Proof.Machine
end

