-- ==== Sys2Proof/Laws/PerInstr.lean ====
section
/-!
SUPPORT. The family `TableWord`: the encoding of every well-formed instruction begins with a word of its row
of spec/opcode_table.json (the row's match under the row's mask; reference parameters).
-/

namespace Sys2Proof.Laws.TableWord

/-- The first bytes of the encoding, masked, are the row's match. -/
def Statement (i : Instr) : Prop :=
  i.wf Config.reference = true →
    wordOf ((encode Config.reference i).take (rowBytes i)) &&& rowMask i = rowMatch i

theorem wsStart (b : Byte) : Statement (.wsStart b) := by
  intro _
  simp [rowBytes, encode, rowMask, rowMatch, wordOf]
theorem wsDrop (b : Byte) : Statement (.wsDrop b) := by
  intro _
  simp [rowBytes, encode, rowMask, rowMatch, wordOf]
theorem rxRestart (b : Byte) : Statement (.rxRestart b) := by
  intro _
  simp [rowBytes, encode, rowMask, rowMatch, wordOf]
theorem rxEnd (b : Byte) : Statement (.rxEnd b) := by
  intro _
  simp [rowBytes, encode, rowMask, rowMatch, wordOf]
theorem rxData (b : Byte) : Statement (.rxData b) := by
  intro _
  simp [rowBytes, encode, rowMask, rowMatch, wordOf]
theorem rxOverflow (b : Byte) : Statement (.rxOverflow b) := by
  intro _
  simp [rowBytes, encode, rowMask, rowMatch, wordOf]
theorem mv (tail : Text) : Statement (.mv tail) := by
  intro _
  simp [rowBytes, encode, rowMask, rowMatch, wordOf]
theorem st (tail : Text) : Statement (.st tail) := by
  intro _
  simp [rowBytes, encode, rowMask, rowMatch, wordOf]
theorem gt (tail : Text) : Statement (.gt tail) := by
  intro _
  simp [rowBytes, encode, rowMask, rowMatch, wordOf]
theorem sf (tail : Text) : Statement (.sf tail) := by
  intro _
  simp [rowBytes, encode, rowMask, rowMatch, wordOf]
theorem sb (tail : Text) : Statement (.sb tail) := by
  intro _
  simp [rowBytes, encode, rowMask, rowMatch, wordOf]
theorem sl (tail : Text) : Statement (.sl tail) := by
  intro _
  simp [rowBytes, encode, rowMask, rowMatch, wordOf]
theorem sr (tail : Text) : Statement (.sr tail) := by
  intro _
  simp [rowBytes, encode, rowMask, rowMatch, wordOf]
theorem unknownCode (payload : Text) : Statement (.unknownCode payload) := fun _ => Nat.and_zero _
theorem respOk : Statement .respOk := fun _ => rfl
theorem respNack : Statement .respNack := fun _ => rfl
theorem respErrInvalidCommand : Statement .respErrInvalidCommand := fun _ => rfl
theorem respErrInvalidParams : Statement .respErrInvalidParams := fun _ => rfl
theorem respErrBufferFull : Statement .respErrBufferFull := fun _ => rfl
theorem tel (m : Sample) : Statement (.tel m) := by
  intro _
  simp [rowBytes, encode, rowMask, rowMatch, wordOf, telToken, Config.reference]
theorem initSession : Statement .initSession := fun _ => rfl
theorem processAvailableInput : Statement .processAvailableInput := fun _ => rfl
theorem hasPendingCommand : Statement .hasPendingCommand := fun _ => rfl
theorem getNextCommand : Statement .getNextCommand := fun _ => rfl
theorem sendResponse (k : Kind) : Statement (.sendResponse k) := by
  intro _
  simp [rowBytes, encode, rowMask, rowMatch, wordOf]
theorem sendTelemetry (m : Sample) : Statement (.sendTelemetry m) := by
  intro _
  simp [rowBytes, encode, rowMask, rowMatch, wordOf]
theorem getStatistics : Statement .getStatistics := fun _ => rfl
theorem resetStatistics : Statement .resetStatistics := fun _ => rfl
theorem cbInit : Statement .cbInit := fun _ => rfl
theorem cbEnqueue (c : Command) : Statement (.cbEnqueue c) := by
  intro _
  simp [rowBytes, encode, rowMask, rowMatch, wordOf]
theorem cbDequeue : Statement .cbDequeue := fun _ => rfl
theorem cbIsEmpty : Statement .cbIsEmpty := fun _ => rfl
theorem cbIsFull : Statement .cbIsFull := fun _ => rfl
theorem cbCount : Statement .cbCount := fun _ => rfl
theorem encodeCommand (c : Command) (n : Nat) : Statement (.encodeCommand c n) := by
  intro _
  simp [rowBytes, encode, rowMask, rowMatch, wordOf]
theorem encodeTelemetry (m : Sample) (n : Nat) : Statement (.encodeTelemetry m n) := by
  intro _
  simp [rowBytes, encode, rowMask, rowMatch, wordOf]
theorem encodeResponse (k : Kind) : Statement (.encodeResponse k) := by
  intro _
  simp [rowBytes, encode, rowMask, rowMatch, wordOf]
theorem parseResponse (text : Text) : Statement (.parseResponse text) := by
  intro _
  simp [rowBytes, encode, rowMask, rowMatch, wordOf]

end Sys2Proof.Laws.TableWord
end

