-- ==== Sys2Proof/Laws/Text.lean ====
section
/-!
SUPPORT. One lemma for each shared operation on texts and numbers that says what it answers.
-/

namespace Sys2Proof.Machine

/-! ### The front of a payload -/

/-- Exactly the leading whitespace is skipped (R17, R121). -/
theorem skipWs_white {c : Config} {white : Text} {b : Byte} {rest : Text}
    (hw : ∀ x ∈ white, isWs c x = true) (hb : isWs c b = false) :
    skipWs c (white ++ b :: rest) = b :: rest := by
  induction white with
  | nil => simp [skipWs, hb]
  | cons a white ih =>
    simp only [List.mem_cons, forall_eq_or_imp] at hw
    simp [skipWs, hw.1, ih hw.2]

/-- A separator in front is skipped (R124). -/
@[simp] theorem skipSepCode_sep (c : Config) (tail : Text) : skipSepCode c (c.sepCode :: tail) = tail := by
  simp [skipSepCode]

/-- Nothing else is skipped (R124). -/
theorem skipSepCode_of_ne {c : Config} {rest : Text} (h : rest.head? ≠ some c.sepCode) :
    skipSepCode c rest = rest := by
  cases rest <;> simp_all [skipSepCode]

/-- The code and the parameter substring of a payload with two characters (R121 to R124). -/
theorem splitPayload_white {c : Config} {white rest : Text} {c1 c2 : Byte}
    (hw : ∀ x ∈ white, isWs c x = true) (h1 : isWs c c1 = false) :
    splitPayload c (white ++ c1 :: c2 :: rest) = (lookupCode c1 c2, skipSepCode c rest) := by
  rw [splitPayload, skipWs_white hw h1]

/-! ### Digits -/

/-- The ASCII digit of a decimal digit reads as that digit (R71). -/
theorem digitVal_digitByte {n : Nat} (h : n < 10) : digitVal (digitByte n) = some n := by
  have all : ∀ k, k < 10 → digitVal (digitByte k) = some k := by decide
  exact all n h

/-- `fracText` writes exactly `d` digits (R193). -/
@[simp] theorem fracText_length (d n : Nat) : (fracText d n).length = d := by
  induction d with
  | zero => rfl
  | succ d ih => simp [fracText, ih]

theorem fracText_allDigits (d n : Nat) : allDigits (fracText d n) = true := by
  induction d with
  | zero => rfl
  | succ d ih =>
    rw [allDigits] at ih
    simp [allDigits, fracText, digitVal_digitByte (Nat.mod_lt _ (by decide : 0 < 10)), ih]

/-- Read behind digits that count `a`, they count the `d` low digits of `n` on. -/
theorem fracText_foldl (d n a : Nat) :
    (fracText d n).foldl (fun k b => 10 * k + (digitVal b).getD 0) a = a * 10 ^ d + n % 10 ^ d := by
  induction d generalizing a with
  | zero => simp [fracText, Nat.mod_one]
  | succ d ih =>
    rw [fracText, List.foldl_cons, ih, digitVal_digitByte (Nat.mod_lt _ (by decide : 0 < 10)),
      Option.getD_some, pow_succ, Nat.mod_mul]
    ring

/-! ### Rounding -/

/-- `roundHalfEven` answers a number within one half of the quotient, even if it is exactly one half away. -/
theorem roundHalfEven_spec {num den : Nat} (hd : 0 < den) :
    2 * num ≤ (2 * roundHalfEven num den + 1) * den ∧
      2 * roundHalfEven num den * den ≤ 2 * num + den ∧
      (2 * num = (2 * roundHalfEven num den + 1) * den ∨
        2 * roundHalfEven num den * den = 2 * num + den → roundHalfEven num den % 2 = 0) := by
  have hm := Nat.div_add_mod num den
  have hr := Nat.mod_lt num hd
  unfold roundHalfEven
  generalize num / den = q at *
  generalize num % den = r at *
  have e : 2 * q * den = 2 * (den * q) := by ring
  simp only
  split_ifs <;> simp only [mul_add, add_mul, one_mul, mul_one] <;>
    refine ⟨by omega, by omega, fun h => by omega⟩

end Sys2Proof.Machine
end

