-- ==== Sys2Proof/Tests/Slice0.lean ====
section
/-!
SUPPORT. Tests. Every expected value is from spec/ (the table of R74, R78, R94, the vectors of
95_test_vectors, named in each docstring), or worked out from a rule by hand. Then one witness for each
obligation with hypotheses.
-/

namespace Sys2Proof.Tests

open Sys2Proof Sys2Proof.Machine

/-! ### Small states -/

/-- What a view shows of a next state. -/
def got {α : Type} (o : Out) (view : State → α) : Option α :=
  match o with
  | .next s => some (view s)
  | .fault _ => none
  | .refused _ => none

/-- The reason of a refusal. -/
def refusedBy (o : Out) : Option Refusal :=
  match o with
  | .next _ => none
  | .fault _ => none
  | .refused r => some r

/-- A state with one received byte to come. -/
def wire (b : Byte) (s : State) : State := { s with inbox := [.rxByte b] }

/-- A state with one request to come. -/
def asked (r : Request) (s : State) : State := { s with inbox := [r] }

/-- In a frame, at an index, with some cells. -/
def receiving (i : Nat) (m : List Host.Cell) : State :=
  { State.reset with state := .receiving, rxIndex := i, rxBuf := m }

/-- A completed frame whose command runs next. -/
def frameOpen : State := { State.reset with state := .frameReady }

/-- Before the first `init_session`: registers that hold anything, and that event first. -/
def uninitialised : State :=
  { frameOpen with initialised := false, rxIndex := 70, head := 12, count := 3, inbox := [.op [0x00]] }

/-- The sample of vector T1. -/
def t1 : Sample := ⟨0x4029000000000000, 0x4059000000000000, 0xC059000000000000, 0x4042400000000000, 123456⟩

/-- Its bytes at the model's port, least significant byte first (log entry 7). -/
def sampleT1 : Text :=
  [0x00, 0x00, 0x00, 0x00, 0x00, 0x00, 0x29, 0x40, 0x00, 0x00, 0x00, 0x00, 0x00, 0x00, 0x59, 0x40,
    0x00, 0x00, 0x00, 0x00, 0x00, 0x00, 0x59, 0xC0, 0x00, 0x00, 0x00, 0x00, 0x00, 0x40, 0x42, 0x40,
    0x40, 0xE2, 0x01, 0x00]

/-- Vector Q4's start: `head = 9`, `count = 1`, `newest_id = 7`. -/
def q4 : State :=
  { State.reset with head := 9, count := 1, newestId := 7, ring := [(9, ⟨7, .gt, .getTelemetry, []⟩)] }

/-- Inside a frame, with ids 7 and 8 queued in slots 9 and 0, and the counters of vector H8. -/
def mid : State :=
  { State.reset with
    state := .receiving
    rxIndex := 3
    rxBuf := [(0, 0x47), (1, 0x54), (2, 0x21)]
    ring := [(0, ⟨8, .st, .stop, []⟩), (9, ⟨7, .gt, .getTelemetry, []⟩)]
    head := 9
    count := 2
    newestId := 8
    framesReceived := 7
    framesSent := 9
    parseErrors := 2
    rxOverflows := 1 }

/-- Vector Q8's start: `head = 4`, full, `newest_id = 20`. -/
def fullQ8 : State := { State.reset with head := 4, count := 10, newestId := 20 }

/-! ### Decoding: one word for each constructor, written out from the spec -/

/-- R74: `WAITING_START`, class START. -/
theorem test_decode_wsStart :
    decode Config.reference .rx [0b0010, 0x53] = .instr (.wsStart 0x53) := by decide

/-- R74: `WAITING_START`, class END; the mask 0b1010 leaves `w[2]` open. -/
theorem test_decode_wsDrop :
    decode Config.reference .rx [0b0100, 0x45] = .instr (.wsDrop 0x45) := by decide

/-- R74: `RECEIVING`, class START, full; `w[0]` is open. -/
theorem test_decode_rxRestart :
    decode Config.reference .rx [0b1011, 0x53] = .instr (.rxRestart 0x53) := by decide

/-- R74: `RECEIVING`, class END. -/
theorem test_decode_rxEnd :
    decode Config.reference .rx [0b1100, 0x45] = .instr (.rxEnd 0x45) := by decide

/-- R74: `RECEIVING`, class OTHER, room. -/
theorem test_decode_rxData :
    decode Config.reference .rx [0b1000, 0x41] = .instr (.rxData 0x41) := by decide

/-- R74: `RECEIVING`, class OTHER, full. -/
theorem test_decode_rxOverflow :
    decode Config.reference .rx [0b1001, 0x41] = .instr (.rxOverflow 0x41) := by decide

/-- R73: the class 0b11 does not occur; the word has four bits. -/
theorem test_decode_noSuchByteClass :
    decode Config.reference .rx [0b1111, 0x41] = .reject .noSuchByteClass ∧
      decode Config.reference .rx [0x10, 0x41] = .reject .wordTooWide := by decide

/-- R81, R121, R124: `"  mV:1,2"`. -/
theorem test_decode_mv :
    decode Config.reference .cmd [0x20, 0x20, 0x6D, 0x56, 0x3A, 0x31, 0x2C, 0x32] = .instr (.mv [0x31, 0x2C, 0x32]) := by decide

/-- D3: `"STOP"`. -/
theorem test_decode_st :
    decode Config.reference .cmd [0x53, 0x54, 0x4F, 0x50] = .instr (.st [0x4F, 0x50]) := by decide

/-- V18: the payload string ends at the NUL. -/
theorem test_decode_gt :
    decode Config.reference .cmd [0x47, 0x54, 0x00, 0x78, 0x79] = .instr (.gt []) := by decide

/-- D8: `"SF10"`. -/
theorem test_decode_sf :
    decode Config.reference .cmd [0x53, 0x46, 0x31, 0x30] = .instr (.sf [0x31, 0x30]) := by decide

/-- D10: `"sb:128"`. -/
theorem test_decode_sb :
    decode Config.reference .cmd [0x73, 0x62, 0x3A, 0x31, 0x32, 0x38] = .instr (.sb [0x31, 0x32, 0x38]) := by decide

/-- D11: `"sl"`. -/
theorem test_decode_sl :
    decode Config.reference .cmd [0x73, 0x6C] = .instr (.sl []) := by decide

/-- R124: one separator is skipped, not two. -/
theorem test_decode_sr :
    decode Config.reference .cmd [0x73, 0x72, 0x3A, 0x3A, 0x37] = .instr (.sr [0x3A, 0x37]) := by decide

/-- D21: `"M:V"`. -/
theorem test_decode_unknownCode :
    decode Config.reference .cmd [0x4D, 0x3A, 0x56] = .instr (.unknownCode [0x4D, 0x3A, 0x56]) := by decide

/-- E10. -/
theorem test_decode_respOk :
    decode Config.reference .tx [0x53, 0x4F, 0x4B, 0x45] = .instr .respOk := by decide

/-- E11. -/
theorem test_decode_respNack :
    decode Config.reference .tx [0x53, 0x4E, 0x41, 0x43, 0x4B, 0x45] = .instr .respNack := by decide

/-- E12. -/
theorem test_decode_respErrInvalidCommand :
    decode Config.reference .tx [0x53, 0x45, 0x52, 0x52, 0x3A, 0x49, 0x4E, 0x56, 0x41, 0x4C, 0x49, 0x44, 0x5F, 0x43, 0x4F, 0x4D, 0x4D, 0x41, 0x4E, 0x44, 0x45] = .instr .respErrInvalidCommand := by decide

/-- E12. -/
theorem test_decode_respErrInvalidParams :
    decode Config.reference .tx [0x53, 0x45, 0x52, 0x52, 0x3A, 0x49, 0x4E, 0x56, 0x41, 0x4C, 0x49, 0x44, 0x5F, 0x50, 0x41, 0x52, 0x41, 0x4D, 0x53, 0x45] = .instr .respErrInvalidParams := by decide

/-- E13. -/
theorem test_decode_respErrBufferFull :
    decode Config.reference .tx [0x53, 0x45, 0x52, 0x52, 0x3A, 0x42, 0x55, 0x46, 0x46, 0x45, 0x52, 0x5F, 0x46, 0x55, 0x4C, 0x4C, 0x45] = .instr .respErrBufferFull := by decide

/-- R79, with the sample of T1 behind the prefix (the model's operand bytes, log entry 7). -/
theorem test_decode_tel :
    decode Config.reference .tx ([0x53, 0x54, 0x45, 0x4C, 0x3A] ++ sampleT1) = .instr (.tel t1) := by decide

/-- R94: op_sel 0x0. -/
theorem test_decode_initSession :
    decode Config.reference .op [0x00] = .instr .initSession := by decide

/-- R94: op_sel 0x1. -/
theorem test_decode_processAvailableInput :
    decode Config.reference .op [0x01] = .instr .processAvailableInput := by decide

/-- R94: op_sel 0x2. -/
theorem test_decode_hasPendingCommand :
    decode Config.reference .op [0x02] = .instr .hasPendingCommand := by decide

/-- R94: op_sel 0x3. -/
theorem test_decode_getNextCommand :
    decode Config.reference .op [0x03] = .instr .getNextCommand := by decide

/-- R94: op_sel 0x6. -/
theorem test_decode_getStatistics :
    decode Config.reference .op [0x06] = .instr .getStatistics := by decide

/-- R94: op_sel 0x7. -/
theorem test_decode_resetStatistics :
    decode Config.reference .op [0x07] = .instr .resetStatistics := by decide

/-- R94: op_sel 0x8. -/
theorem test_decode_cbInit :
    decode Config.reference .op [0x08] = .instr .cbInit := by decide

/-- R94: op_sel 0xA. -/
theorem test_decode_cbDequeue :
    decode Config.reference .op [0x0A] = .instr .cbDequeue := by decide

/-- R94: op_sel 0xB. -/
theorem test_decode_cbIsEmpty :
    decode Config.reference .op [0x0B] = .instr .cbIsEmpty := by decide

/-- R94: op_sel 0xC. -/
theorem test_decode_cbIsFull :
    decode Config.reference .op [0x0C] = .instr .cbIsFull := by decide

/-- R94: op_sel 0xD. -/
theorem test_decode_cbCount :
    decode Config.reference .op [0x0D] = .instr .cbCount := by decide

/-- R94, R95: op_sel 4, kind 1. -/
theorem test_decode_sendResponse :
    decode Config.reference .op [0x04, 0x01] = .instr (.sendResponse .nack) := by decide

/-- R94: op_sel 5. -/
theorem test_decode_sendTelemetry :
    decode Config.reference .op (0x05 :: sampleT1) = .instr (.sendTelemetry t1) := by decide

/-- R94: op_sel 9; the code ST is 1 and the action STOP 0 (R27, R28). -/
theorem test_decode_cbEnqueue :
    decode Config.reference .op [0x09, 0x34, 0x12, 0x01, 0x00, 0x00] = .instr (.cbEnqueue ⟨0x1234, .st, .stop, []⟩) := by decide

/-- R94: op_sel 0xE, enc_sel 0. -/
theorem test_decode_encodeCommand :
    decode Config.reference .op ([0x0E, 0x00, 0x00, 0x03, 0x01, 0x01] ++ [0x00, 0x00, 0x00, 0x00, 0x00, 0xE0, 0x6F, 0x40] ++ [0x40, 0x00, 0x00, 0x00]) = .instr (.encodeCommand ⟨0, .sf, .moveForward, [0x406FE00000000000]⟩ 64) := by decide

/-- R94: op_sel 0xE, enc_sel 1. -/
theorem test_decode_encodeTelemetry :
    decode Config.reference .op (0x1E :: (sampleT1 ++ [0x25, 0x00, 0x00, 0x00])) = .instr (.encodeTelemetry t1 37) := by decide

/-- R94: op_sel 0xE, enc_sel 2. -/
theorem test_decode_encodeResponse :
    decode Config.reference .op [0x2E, 0x04] = .instr (.encodeResponse .errBufferFull) := by decide

/-- R94: op_sel 0xF. -/
theorem test_decode_parseResponse :
    decode Config.reference .op (0x0F :: [0x53, 0x4F, 0x4B, 0x45, 0x00]) = .instr (.parseResponse [0x53, 0x4F, 0x4B, 0x45]) := by decide

/-- Every rejection of the port and of the transmit level. -/
theorem test_decode_rejects_by_name :
    decode Config.reference .op [] = .reject .emptyWord ∧ decode Config.reference .op [0x40] = .reject .wordTooWide ∧
      decode Config.reference .op [0x3E] = .reject .unusedEncSel ∧ decode Config.reference .op [0x04] = .reject .operandMissing ∧
      decode Config.reference .op [0x04, 0x05] = .reject .noSuchKind ∧
      decode Config.reference .op [0x09, 0x00, 0x00, 0x08, 0x00, 0x00] = .reject .noSuchCodeOrAction ∧
      decode Config.reference .op [0x09, 0x00, 0x00, 0x00, 0x00, 0x0B] = .reject .tooManyParams ∧
      decode Config.reference .tx [0x53, 0x58] = .reject .noSuchTransmitText := by decide

/-- Table words: op_sel 0xA, the pair `sF`, the frame text of NACK. -/
theorem test_decodeTableWord :
    decodeTableWord 8 0x0A = some .cbDequeue ∧ decodeTableWord 16 0x7346 = some (.sf []) ∧
      decodeTableWord 48 0x534E41434B45 = some .respNack := by decide

/-- The word `gt` placed at the fetch is the next instruction. -/
theorem test_withFetchWord_runs_command :
    got (step (State.reset.withFetchWord 16 0x6774)) (fun s => (s.count, s.slot 0)) =
      some (1, ⟨1, .gt, .getTelemetry, []⟩) := by decide

/-! ### WellFormed: one ill-formed term for each check -/

theorem test_illFormed_wsStart :
    Instr.wf Config.reference (.wsStart 0x54) = false := by decide

theorem test_illFormed_wsDrop :
    Instr.wf Config.reference (.wsDrop 0x53) = false := by decide

theorem test_illFormed_rxRestart :
    Instr.wf Config.reference (.rxRestart 0x45) = false := by decide

theorem test_illFormed_rxEnd :
    Instr.wf Config.reference (.rxEnd 0x44) = false := by decide

theorem test_illFormed_rxData :
    Instr.wf Config.reference (.rxData 0x53) = false := by decide

theorem test_illFormed_rxData_2 :
    Instr.wf Config.reference (.rxData 0x45) = false := by decide

theorem test_illFormed_rxOverflow :
    Instr.wf Config.reference (.rxOverflow 0x53) = false := by decide

theorem test_illFormed_rxOverflow_2 :
    Instr.wf Config.reference (.rxOverflow 0x45) = false := by decide

theorem test_illFormed_mv :
    Instr.wf Config.reference (.mv [0x31, 0x00]) = false := by decide

theorem test_illFormed_st :
    Instr.wf Config.reference (.st [0x31, 0x00]) = false := by decide

theorem test_illFormed_gt :
    Instr.wf Config.reference (.gt [0x31, 0x00]) = false := by decide

theorem test_illFormed_sf :
    Instr.wf Config.reference (.sf [0x31, 0x00]) = false := by decide

theorem test_illFormed_sb :
    Instr.wf Config.reference (.sb [0x31, 0x00]) = false := by decide

theorem test_illFormed_sl :
    Instr.wf Config.reference (.sl [0x31, 0x00]) = false := by decide

theorem test_illFormed_sr :
    Instr.wf Config.reference (.sr [0x31, 0x00]) = false := by decide

theorem test_illFormed_unknownCode :
    Instr.wf Config.reference (.unknownCode [0x58, 0x00]) = false := by decide

theorem test_illFormed_unknownCode_2 :
    Instr.wf Config.reference (.unknownCode [0x73, 0x74]) = false := by decide

theorem test_illFormed_cbEnqueue :
    Instr.wf Config.reference (.cbEnqueue ⟨0, .mv, .stop, List.replicate 11 0⟩) = false := by decide

theorem test_illFormed_encodeCommand :
    Instr.wf Config.reference (.encodeCommand ⟨0, .mv, .stop, List.replicate 11 0⟩ 64) = false := by decide

theorem test_illFormed_encodeCommand_2 :
    Instr.wf Config.reference (.encodeCommand ⟨0, .st, .stop, []⟩ 4294967296) = false := by decide

theorem test_illFormed_encodeTelemetry :
    Instr.wf Config.reference (.encodeTelemetry t1 4294967296) = false := by decide

theorem test_illFormed_parseResponse :
    Instr.wf Config.reference (.parseResponse [0x4F, 0x00]) = false := by decide

/-- The start marker wins where both markers are one byte. -/
theorem test_illFormed_endIsStart :
    Instr.wf { Config.reference with endMarker := 0x53 } (.rxEnd 0x53) = false := by decide

/-- The port's count byte holds at most 255. -/
theorem test_illFormed_countByte :
    Command.wf { Config.reference with maxParams := 300 } ⟨0, .mv, .stop, List.replicate 256 0⟩ = false := by decide +kernel

/-- Well-formed terms are accepted. -/
theorem test_wellFormed_kinds :
    Instr.wf Config.reference .respOk = true ∧ Instr.wf Config.reference (.unknownCode [0x58]) = true ∧
      Instr.wf Config.reference (.encodeTelemetry t1 4294967295) = true := by decide

theorem test_config_reference_ok :
    Config.reference.ok = true ∧ Config.reference.readable = true := by decide

/-- R7. -/
theorem test_config_bad_markers :
    Config.ok { Config.reference with endMarker := 0x53 } = false := by decide

/-- R7. -/
theorem test_config_bad_maxPayload :
    Config.ok { Config.reference with maxPayload := 0 } = false := by decide

/-- R7. -/
theorem test_config_bad_cmdCapacity :
    Config.ok { Config.reference with cmdCapacity := 0 } = false := by decide

/-- R7. -/
theorem test_config_bad_txBufSize :
    Config.ok { Config.reference with txBufSize := 31 } = false := by decide

/-- R7. -/
theorem test_config_bad_maxParams :
    Config.ok { Config.reference with maxParams := 1 } = false := by decide

theorem test_config_unreadable_letter :
    Config.readable { Config.reference with ws := [0x4D] } = false := by decide

theorem test_config_unreadable_letterS :
    Config.readable { Config.reference with ws := [0x53] } = false := by decide

theorem test_config_unreadable_letterG :
    Config.readable { Config.reference with ws := [0x47] } = false := by decide

theorem test_config_unreadable_separator :
    Config.readable { Config.reference with sepCode := 0x00 } = false := by decide

/-- R176, R237: `init_session` runs whatever the registers hold; the word `gt` placed there runs too. -/
theorem test_uninitialised :
    got (step uninitialised) (fun s => (s.initialised, s.state, s.rxIndex, s.head, s.count)) =
        some (true, .waitingStart, 0, 0, 0) ∧
      got (step (uninitialised.withFetchWord 16 0x6774)) (fun s => s.output) =
        some [.tx [0x53, 0x4F, 0x4B, 0x45]] := by
  decide +kernel

/-! ### Meanings: one step on a small state, expected values from the spec's vectors -/

/-- R100. -/
theorem test_wsStart :
    got (step (wire 0x53 State.reset)) (fun s => (s.state, s.rxIndex)) =
      some (.receiving, 0) := by decide

/-- V17: an end marker with no frame open. -/
theorem test_wsDrop :
    got (step (wire 0x45 State.reset)) (fun s => (s.state, s.framesReceived, s.output)) =
      some (.waitingStart, 0, []) := by decide

/-- Section 2, boundary: a restart at `rx_index = 64`, no overflow. -/
theorem test_rxRestart :
    got (step (wire 0x53 (receiving 64 []))) (fun s => (s.state, s.rxIndex, s.rxOverflows)) =
      some (.receiving, 0, 0) := by decide

/-- V1, P1: the end marker of `SMV:255,-255E`. -/
theorem test_rxEnd_runs_mv :
    got (step (wire 0x45 (receiving 11 (storeText [] 0 [0x4D, 0x56, 0x3A, 0x32, 0x35, 0x35, 0x2C, 0x2D, 0x32, 0x35, 0x35])))) (fun s => (s.state, s.rxIndex, s.slot 0, s.rxCell 11, s.output)) =
      some (.waitingStart, 0, ⟨1, .mv, .moveRight, [0x406FE00000000000, 0xC06FE00000000000]⟩, 0x00, [.tx [0x53, 0x4F, 0x4B, 0x45]]) := by decide +kernel

/-- V18: the payload is cut at the NUL. -/
theorem test_rxEnd_cut_at_nul :
    got (step (wire 0x45 (receiving 5 (storeText [] 0 [0x47, 0x54, 0x00, 0x78, 0x79])))) (fun s => (s.slot 0, s.framesReceived)) =
      some (⟨1, .gt, .getTelemetry, []⟩, 1) := by decide

/-- Section 2, boundary. -/
theorem test_rxData_at_63 :
    got (step (wire 0x41 (receiving 63 []))) (fun s => (s.rxIndex, s.rxCell 63, s.rxOverflows)) =
      some (64, 0x41, 0) := by decide

/-- V10, boundary. -/
theorem test_rxOverflow_at_64 :
    got (step (wire 0x41 (receiving 64 []))) (fun s => (s.state, s.rxIndex, s.rxOverflows, s.rxCell 64, s.output)) =
      some (.waitingStart, 0, 1, 0x00, []) := by decide

/-- D14: `MV:5,`. -/
theorem test_mv_two_numbers_needed :
    got (exec (.mv [0x35, 0x2C]) frameOpen) (fun s => (s.count, s.parseErrors, s.output)) =
      some (0, 1, [.tx [0x53, 0x45, 0x52, 0x52, 0x3A, 0x49, 0x4E, 0x56, 0x41, 0x4C, 0x49, 0x44, 0x5F, 0x50, 0x41, 0x52, 0x41, 0x4D, 0x53, 0x45]]) := by decide

/-- D15. -/
theorem test_mv_keeps_three :
    got (exec (.mv [0x31, 0x2C, 0x32, 0x2C, 0x33]) frameOpen) (fun s => (s.slot 0)) =
      some ⟨1, .mv, .customMove, [0x3FF0000000000000, 0x4000000000000000, 0x4008000000000000]⟩ := by decide +kernel

/-- D3: `ST:abc`. -/
theorem test_st_ignores_tail :
    got (exec (.st [0x61, 0x62, 0x63]) frameOpen) (fun s => (s.slot 0, s.output)) =
      some (⟨1, .st, .stop, []⟩, [.tx [0x53, 0x4F, 0x4B, 0x45]]) := by decide

/-- D4: `GT5`. -/
theorem test_gt :
    got (exec (.gt [0x35]) frameOpen) (fun s => (s.slot 0, s.state, s.rxIndex)) =
      some (⟨1, .gt, .getTelemetry, []⟩, .waitingStart, 0) := by decide

/-- D7: 255.0. -/
theorem test_sf_default :
    got (exec (.sf []) frameOpen) (fun s => (s.slot 0)) =
      some ⟨1, .sf, .moveForward, [0x406FE00000000000]⟩ := by decide

/-- D9. -/
theorem test_sf_scan_failure :
    got (exec (.sf [0x2C, 0x35]) frameOpen) (fun s => (s.count, s.newestId, s.parseErrors)) =
      some (0, 0, 1) := by decide

/-- D10. -/
theorem test_sb :
    got (exec (.sb [0x31, 0x32, 0x38]) frameOpen) (fun s => (s.slot 0)) =
      some ⟨1, .sb, .moveBackwards, [0x4060000000000000]⟩ := by decide +kernel

/-- D8, for SL: one number is taken. -/
theorem test_sl :
    got (exec (.sl [0x31, 0x30, 0x2C, 0x32, 0x30]) frameOpen) (fun s => (s.slot 0)) =
      some ⟨1, .sl, .moveLeft, [0x4024000000000000]⟩ := by decide +kernel

/-- D12. -/
theorem test_sr :
    got (exec (.sr [0x37, 0x2E, 0x35]) frameOpen) (fun s => (s.slot 0)) =
      some ⟨1, .sr, .moveRight, [0x401E000000000000]⟩ := by decide +kernel

/-- V9. -/
theorem test_unknownCode :
    got (exec (.unknownCode [0x58, 0x59, 0x3A, 0x31, 0x2C, 0x32]) frameOpen) (fun s => (s.count, s.parseErrors, s.output)) =
      some (0, 1, [.tx [0x53, 0x45, 0x52, 0x52, 0x3A, 0x49, 0x4E, 0x56, 0x41, 0x4C, 0x49, 0x44, 0x5F, 0x43, 0x4F, 0x4D, 0x4D, 0x41, 0x4E, 0x44, 0x45]]) := by decide

/-- Q8: a full buffer, by a received command (R108, R204). -/
theorem test_gt_evicts :
    got (exec (.gt []) fullQ8) (fun s => (s.head, s.count, s.newestId, s.slot 4, s.output)) =
      some (5, 10, 21, ⟨21, .gt, .getTelemetry, []⟩, [.tx [0x53, 0x45, 0x52, 0x52, 0x3A, 0x42, 0x55, 0x46, 0x46, 0x45, 0x52, 0x5F, 0x46, 0x55, 0x4C, 0x4C, 0x45]]) := by decide

/-- R185, R186: the text of R78 is sent and counted. -/
theorem test_respOk :
    got (step (asked (.tx [0x53, 0x4F, 0x4B, 0x45]) State.reset)) (fun s => (s.output, s.framesSent, s.parseErrors)) =
      some ([.tx [0x53, 0x4F, 0x4B, 0x45]], 1, 0) := by decide

/-- R185, R186: the text of R78 is sent and counted. -/
theorem test_respNack :
    got (step (asked (.tx [0x53, 0x4E, 0x41, 0x43, 0x4B, 0x45]) State.reset)) (fun s => (s.output, s.framesSent, s.parseErrors)) =
      some ([.tx [0x53, 0x4E, 0x41, 0x43, 0x4B, 0x45]], 1, 0) := by decide

/-- R185, R186: the text of R78 is sent and counted. -/
theorem test_respErrInvalidCommand :
    got (step (asked (.tx [0x53, 0x45, 0x52, 0x52, 0x3A, 0x49, 0x4E, 0x56, 0x41, 0x4C, 0x49, 0x44, 0x5F, 0x43, 0x4F, 0x4D, 0x4D, 0x41, 0x4E, 0x44, 0x45]) State.reset)) (fun s => (s.output, s.framesSent, s.parseErrors)) =
      some ([.tx [0x53, 0x45, 0x52, 0x52, 0x3A, 0x49, 0x4E, 0x56, 0x41, 0x4C, 0x49, 0x44, 0x5F, 0x43, 0x4F, 0x4D, 0x4D, 0x41, 0x4E, 0x44, 0x45]], 1, 0) := by decide

/-- R185, R186: the text of R78 is sent and counted. -/
theorem test_respErrInvalidParams :
    got (step (asked (.tx [0x53, 0x45, 0x52, 0x52, 0x3A, 0x49, 0x4E, 0x56, 0x41, 0x4C, 0x49, 0x44, 0x5F, 0x50, 0x41, 0x52, 0x41, 0x4D, 0x53, 0x45]) State.reset)) (fun s => (s.output, s.framesSent, s.parseErrors)) =
      some ([.tx [0x53, 0x45, 0x52, 0x52, 0x3A, 0x49, 0x4E, 0x56, 0x41, 0x4C, 0x49, 0x44, 0x5F, 0x50, 0x41, 0x52, 0x41, 0x4D, 0x53, 0x45]], 1, 0) := by decide

/-- R185, R186: the text of R78 is sent and counted. -/
theorem test_respErrBufferFull :
    got (step (asked (.tx [0x53, 0x45, 0x52, 0x52, 0x3A, 0x42, 0x55, 0x46, 0x46, 0x45, 0x52, 0x5F, 0x46, 0x55, 0x4C, 0x4C, 0x45]) State.reset)) (fun s => (s.output, s.framesSent, s.parseErrors)) =
      some ([.tx [0x53, 0x45, 0x52, 0x52, 0x3A, 0x42, 0x55, 0x46, 0x46, 0x45, 0x52, 0x5F, 0x46, 0x55, 0x4C, 0x4C, 0x45]], 1, 0) := by decide

/-- T1, R190. -/
theorem test_tel :
    got (exec (.tel t1) State.reset) (fun s => (s.output, s.framesSent)) =
      some ([.tx [0x53, 0x54, 0x45, 0x4C, 0x3A, 0x31, 0x32, 0x2E, 0x35, 0x30, 0x2C, 0x31, 0x30, 0x30, 0x2E, 0x30, 0x2C, 0x2D, 0x31, 0x30, 0x30, 0x2E, 0x30, 0x2C, 0x33, 0x36, 0x2E, 0x35, 0x2C, 0x31, 0x32, 0x33, 0x34, 0x35, 0x36, 0x45], .ret (.flag true)], 1) := by decide +kernel

/-- H10. -/
theorem test_initSession :
    got (exec .initSession mid) (fun s => (s.state, s.rxIndex, s.count, s.newestId, s.framesSent)) =
      some (.waitingStart, 0, 0, 0, 0) := by decide

/-- H2. -/
theorem test_processAvailableInput :
    got (exec .processAvailableInput { State.reset with source := [0x53, 0x47, 0x54, 0x45, 0x53, 0x47, 0x54, 0x45] }) (fun s => (s.count, s.source, s.output)) =
      some (2, [], [.tx [0x53, 0x4F, 0x4B, 0x45], .tx [0x53, 0x4F, 0x4B, 0x45], .ret (.number 2)]) := by decide +kernel

/-- R167. -/
theorem test_hasPendingCommand :
    got (exec .hasPendingCommand mid) (fun s => s.output) =
      some [.ret (.flag true)] := by decide

/-- Q4: the oldest is in slot 9 and the head wraps. -/
theorem test_getNextCommand :
    got (exec .getNextCommand mid) (fun s => (s.head, s.count, s.output)) =
      some (0, 1, [.ret (.command (some ⟨7, .gt, .getTelemetry, []⟩))]) := by decide

/-- H5. -/
theorem test_sendResponse :
    got (exec (.sendResponse .nack) State.reset) (fun s => (s.output, s.framesSent)) =
      some ([.tx [0x53, 0x4E, 0x41, 0x43, 0x4B, 0x45]], 1) := by decide

/-- H6. -/
theorem test_sendTelemetry :
    got (exec (.sendTelemetry t1) State.reset) (fun s => (s.output, s.framesSent)) =
      some ([.tx [0x53, 0x54, 0x45, 0x4C, 0x3A, 0x31, 0x32, 0x2E, 0x35, 0x30, 0x2C, 0x31, 0x30, 0x30, 0x2E, 0x30, 0x2C, 0x2D, 0x31, 0x30, 0x30, 0x2E, 0x30, 0x2C, 0x33, 0x36, 0x2E, 0x35, 0x2C, 0x31, 0x32, 0x33, 0x34, 0x35, 0x36, 0x45], .ret (.flag true)], 1) := by decide +kernel

/-- H7: 83 bytes do not fit 64. -/
theorem test_sendTelemetry_too_long :
    got (exec (.sendTelemetry ⟨0x4C63E9E4E4C2F344, 0, 0, 0, 0⟩) State.reset) (fun s => (s.output, s.framesSent)) =
      some ([.ret (.flag false)], 0) := by decide +kernel

/-- H8's counters; the read does not clear. -/
theorem test_getStatistics :
    got (exec .getStatistics mid) (fun s => (s.output, s.framesReceived)) =
      some ([.ret (.statistics 7 9 2 1)], 7) := by decide

/-- H8. -/
theorem test_resetStatistics :
    got (exec .resetStatistics mid) (fun s => (s.framesReceived, s.framesSent, s.parseErrors, s.rxOverflows, s.rxIndex, s.count)) =
      some (0, 0, 0, 0, 3, 2) := by decide

/-- Q6. -/
theorem test_cbInit :
    got (exec .cbInit mid) (fun s => (s.head, s.count, s.newestId, s.rxIndex)) =
      some (0, 0, 0, 3) := by decide

/-- Q4: the write index wraps; the id is stamped. -/
theorem test_cbEnqueue_wraps :
    got (exec (.cbEnqueue ⟨77, .st, .stop, []⟩) q4) (fun s => (s.count, s.newestId, s.slot 0, s.output)) =
      some (2, 8, ⟨8, .st, .stop, []⟩, [.ret (.flag false)]) := by decide

/-- Q5: 65535 goes to 1. -/
theorem test_cbEnqueue_id_wraps :
    got (exec (.cbEnqueue ⟨0, .gt, .getTelemetry, []⟩) { State.reset with newestId := 65535 }) (fun s => (s.newestId, (s.slot 0).id)) =
      some (1, 1) := by decide

/-- Q1. -/
theorem test_cbDequeue_empty :
    got (exec .cbDequeue State.reset) (fun s => (s.head, s.count, s.output)) =
      some (0, 0, [.ret (.command none)]) := by decide

/-- Q4. -/
theorem test_cbDequeue :
    got (exec .cbDequeue mid) (fun s => (s.head, s.count, s.newestId)) =
      some (0, 1, 8) := by decide

/-- Q7. -/
theorem test_cbIsEmpty :
    got (exec .cbIsEmpty State.reset) (fun s => s.output) =
      some [.ret (.flag true)] := by decide

/-- Q3: `cb_is_full = true` at count 10. -/
theorem test_cbIsFull :
    got (exec .cbIsFull fullQ8) (fun s => s.output) =
      some [.ret (.flag true)] := by decide

/-- Q3: `cb_count = 10`. -/
theorem test_cbCount :
    got (exec .cbCount fullQ8) (fun s => s.output) =
      some [.ret (.number 10)] := by decide

/-- E1, E5. -/
theorem test_encodeCommand_fits_18 :
    got (exec (.encodeCommand ⟨0, .mv, .moveRight, [0x406FE00000000000, 0xC06FE00000000000]⟩ 18) State.reset) (fun s => s.output) =
      some [.ret (.text (some [0x53, 0x4D, 0x56, 0x3A, 0x32, 0x35, 0x35, 0x2E, 0x30, 0x2C, 0x2D, 0x32, 0x35, 0x35, 0x2E, 0x30, 0x45]))] := by decide +kernel

/-- E5. -/
theorem test_encodeCommand_not_17 :
    got (exec (.encodeCommand ⟨0, .mv, .moveRight, [0x406FE00000000000, 0xC06FE00000000000]⟩ 17) State.reset) (fun s => s.output) =
      some [.ret (.text none)] := by decide +kernel

/-- T3. -/
theorem test_encodeTelemetry_fits_37 :
    got (exec (.encodeTelemetry t1 37) State.reset) (fun s => (s.output, s.framesSent)) =
      some ([.ret (.text (some [0x53, 0x54, 0x45, 0x4C, 0x3A, 0x31, 0x32, 0x2E, 0x35, 0x30, 0x2C, 0x31, 0x30, 0x30, 0x2E, 0x30, 0x2C, 0x2D, 0x31, 0x30, 0x30, 0x2E, 0x30, 0x2C, 0x33, 0x36, 0x2E, 0x35, 0x2C, 0x31, 0x32, 0x33, 0x34, 0x35, 0x36, 0x45]))], 0) := by decide +kernel

/-- T2: `size = 31`. -/
theorem test_encodeTelemetry_minimum :
    got (exec (.encodeTelemetry ⟨0, 0, 0, 0, 0⟩ 31) State.reset) (fun s => s.output) =
      some [.ret (.text none)] := by decide +kernel

/-- E13. -/
theorem test_encodeResponse :
    got (exec (.encodeResponse .errBufferFull) State.reset) (fun s => (s.output, s.framesSent)) =
      some ([.ret (.text (some [0x53, 0x45, 0x52, 0x52, 0x3A, 0x42, 0x55, 0x46, 0x46, 0x45, 0x52, 0x5F, 0x46, 0x55, 0x4C, 0x4C, 0x45]))], 0) := by decide

/-- P1r. -/
theorem test_parseResponse :
    got (exec (.parseResponse [0x09, 0x0A, 0x4F, 0x4B]) State.reset) (fun s => s.output) =
      some [.ret (.parsed (.response .ok))] := by decide

/-- P6r: one start marker is skipped. -/
theorem test_parseResponse_default :
    got (exec (.parseResponse [0x53, 0x53, 0x4F, 0x4B, 0x45]) State.reset) (fun s => s.output) =
      some [.ret (.parsed (.response .nack))] := by decide

/-! ### Numbers -/

/-- K1 to K5, the source's own examples. -/
theorem test_classify_table :
    (classify 0 0, classify 0x4069000000000000 0x4069000000000000, classify 0x4069000000000000 0x4059000000000000, classify 0xC049000000000000 0x4049000000000000, classify 0x4049000000000000 0xC049000000000000) =
      (.stop, .moveForward, .customMove, .moveLeft, .moveRight) := by decide

/-- K12, K6, K15. -/
theorem test_classify_negative_zero :
    classify 0x8000000000000000 0 = .stop ∧ classify 0xC014000000000000 0xC014000000000000 = .moveBackwards ∧
      classify 0x7FF8000000000000 0x3FF0000000000000 = .moveLeft := by decide

/-- T4k. -/
theorem test_tokenize_scan_failure :
    tokenize Config.reference 10 [0x31, 0x2C, 0x32, 0x2C, 0x78] = none ∧ tokenize Config.reference 1 [0x31, 0x2C, 0x32, 0x2C, 0x78] = some [0x3FF0000000000000] := by decide +kernel

/-- T14k: `1e+` is 1, and the rest stays. -/
theorem test_numParse_exponent_needs_digit :
    numParse Config.reference [0x31, 0x65, 0x2B] = some (0x3FF0000000000000, [0x65, 0x2B]) := by decide +kernel

/-- T16k. -/
theorem test_numParse_extremes :
    numParse Config.reference [0x31, 0x65, 0x39, 0x39, 0x39] = some (0x7FF0000000000000, []) ∧
      numParse Config.reference [0x31, 0x65, 0x2D, 0x39, 0x39, 0x39] = some (0, []) ∧
      numParse Config.reference [0x2D, 0x30] = some (0x8000000000000000, []) := by decide +kernel

/-- U3: a build whose number reader accepts `inf` and not `1e5`. -/
theorem test_numParse_other :
    numParse { Config.reference with numParseOther := [([0x69, 0x6E, 0x66, 0x2C, 0x31], some (0x7FF0000000000000, 3)), ([0x31, 0x65, 0x35], none)] } [0x69, 0x6E, 0x66, 0x2C, 0x31] =
      some (0x7FF0000000000000, [0x2C, 0x31]) ∧
    numParse { Config.reference with numParseOther := [([0x69, 0x6E, 0x66, 0x2C, 0x31], some (0x7FF0000000000000, 3)), ([0x31, 0x65, 0x35], none)] } [0x31, 0x65, 0x35] = none := by decide +kernel

/-- D18, U10: a build that rounds the tie 0.25 up; 0.5 is no tie. -/
theorem test_fmtFixed_other :
    fmtFixed { Config.reference with fmtFixedOther := [(0x3FD0000000000000, 1), (0x3FE0000000000000, 1)] } 0x3FD0000000000000 1 = some [0x30, 0x2E, 0x33] ∧
    fmtFixed { Config.reference with fmtFixedOther := [(0x3FD0000000000000, 1), (0x3FE0000000000000, 1)] } 0x3FE0000000000000 1 = some [0x30, 0x2E, 0x35] := by decide +kernel

/-- F1: 0.25, 99.96 and 2.675. -/
theorem test_fmtFixed_ties :
    fmtFixed Config.reference 0x3FD0000000000000 1 = some [0x30, 0x2E, 0x32] ∧
      fmtFixed Config.reference 0x4058FD70A3D70A3D 1 = some [0x31, 0x30, 0x30, 0x2E, 0x30] ∧ fmtFixed Config.reference 0x4005666666666666 2 = some [0x32, 0x2E, 0x36, 0x37] := by decide +kernel

/-- F2. -/
theorem test_fmtUint :
    fmtUint 4294967295 = [0x34, 0x32, 0x39, 0x34, 0x39, 0x36, 0x37, 0x32, 0x39, 0x35] := by decide +kernel

/-- R193, U9. -/
theorem test_refused_nonFinite :
    refusedBy (exec (.encodeCommand ⟨0, .mv, .moveForward, [0x7FF0000000000000, 0]⟩ 64) State.reset) =
      some .nonFiniteText := by decide +kernel

/-! ### Witnesses: a state and operands that meet an obligation's hypotheses, clause by clause -/

/-- `mid` meets the invariant, with commands queued and a frame in progress. -/
theorem mid_inv : mid.Inv where
  cfgOk := by decide
  notFrameReady := by decide
  waitingIndex := by decide
  indexLe := by decide
  headLt := by decide
  countLe := by decide
  rxBufWf := by decide
  rxBufBelow := by decide
  ringWf := by decide
  ringBelow := by decide
  newestIs := by
    intro k hk
    obtain rfl : k = 1 := by simp only [mid] at hk; omega
    decide
  idsSet := by
    intro k hk
    have hk2 : k < 2 := hk
    interval_cases k <;> decide
  paramsLe := by
    intro k hk
    have hk2 : k < 2 := hk
    interval_cases k <;> decide
  idsConsecutive := by
    intro k hk
    obtain rfl : k = 0 := by simp only [mid] at hk; omega
    decide

theorem witness_DecodeEncodeRoundTrip :
    Config.reference.readable = true ∧
      Instr.wf Config.reference (.rxOverflow 0x41) = true ∧
      Instr.wf Config.reference (.mv [0x3A, 0x31]) = true ∧
      Instr.wf Config.reference (.tel t1) = true ∧
      Instr.wf Config.reference (.encodeCommand ⟨65535, .mv, .stop, List.replicate 10 1⟩ 4294967295) = true := by decide +kernel

theorem witness_StepRunsTheDecodedInstruction :
    frameOpen.initialised = true ∧ frameOpen.state = .frameReady ∧ uninitialised.initialised = false ∧
      uninitialised.inbox = .op [0x00] :: [] ∧ decode uninitialised.cfg .op [0x00] = .instr .initSession ∧
      State.reset.state ≠ .frameReady ∧ State.reset.inbox = [] ∧
      (asked (.arrive [0x53]) mid).state ≠ .frameReady ∧
      (asked (.arrive [0x53]) mid).inbox = .arrive [0x53] :: [] ∧
      (wire 0x45 mid).inbox = .rxByte 0x45 :: [] ∧
      decode mid.cfg .rx (mid.rxBytesOf 0x45) = .instr (.rxEnd 0x45) ∧
      (asked (.op [0x03]) mid).inbox = .op [0x03] :: [] ∧
      decode mid.cfg .op [0x03] = .instr .getNextCommand ∧
      decode mid.cfg .op [0x3E] = .reject .unusedEncSel ∧
      (asked (.tx [0x53]) mid).inbox = .tx [0x53] :: [] ∧
      decode mid.cfg .tx [0x53] = .reject .noSuchTransmitText := by
  decide

theorem witness_ReceivedByteAlwaysCompletes :
    (wire 0x45 (receiving 64 [])).ready = true ∧ (wire 0x45 (receiving 64 [])).state ≠ .frameReady ∧
      (wire 0x45 (receiving 64 [])).rxIndex < Config.rxBufSize (receiving 64 []).cfg ∧
      (wire 0x45 (receiving 64 [])).inbox = .rxByte 0x45 :: [] := by
  decide

theorem witness_RowsRunOnlyWhereSelected :
    mid.ready = true ∧ .rxData 0x41 ∈ rxRows 0x41 ∧ .rxOverflow 0x41 ∈ rxRows 0x41 := by
  decide

theorem witness_RefusedWhenNotReady :
    Config.ok { Config.reference with cmdCapacity := 0 } = false ∧
      ({ State.reset with initialised := false } : State).cfg.ok = true ∧
      ({ State.reset with initialised := false } : State).initialised = false ∧
      Instr.cbCount ≠ .initSession ∧ (wire 0x53 uninitialised).cfg.ok = true ∧
      (wire 0x53 uninitialised).initialised = false ∧
      (wire 0x53 uninitialised).inbox = .rxByte 0x53 :: [] := by
  decide

theorem witness_IndexOutsideSpaceFaults :
    (receiving 65 []).ready = true ∧ (receiving 65 []).state ≠ .waitingStart ∧
      (0x45 : Byte) = (receiving 65 []).cfg.endMarker ∧
      (receiving 65 []).cfg.rxBufSize ≤ (receiving 65 []).rxIndex ∧
      ({ State.reset with head := 10, count := 1 } : State).ready = true ∧
      ({ State.reset with head := 10, count := 1 } : State).count ≠ 0 ∧
      ({ State.reset with head := 10, count := 1 } : State).cfg.cmdCapacity ≤ 10 := by
  decide

theorem witness_WaitingStartBytes :
    State.reset.ready = true ∧ State.reset.state = .waitingStart ∧
      (0x53 : Byte) = State.reset.cfg.startMarker ∧ (0x45 : Byte) ≠ State.reset.cfg.startMarker := by
  decide

theorem witness_ReceivingStartMarkerRestarts :
    (receiving 64 []).ready = true ∧ (receiving 64 []).state = .receiving ∧
      (0x53 : Byte) = (receiving 64 []).cfg.startMarker := by
  decide

theorem witness_EndMarkerCompletesFrame :
    (receiving 64 []).ready = true ∧ (receiving 64 []).state = .receiving ∧
      (0x45 : Byte) = (receiving 64 []).cfg.endMarker ∧
      (receiving 64 []).rxIndex < (receiving 64 []).cfg.rxBufSize ∧
      ∃ t : State, t = { receiving 64 [] with
        rxBuf := Memory.write 0x00 (receiving 64 []).rxBuf (receiving 64 []).rxIndex 0x00
        framesReceived := bump (receiving 64 []).cfg (receiving 64 []).framesReceived
        state := .frameReady } :=
  ⟨by decide, by decide, by decide, by decide, _, rfl⟩

theorem witness_PayloadByteIsStored :
    (receiving 63 []).ready = true ∧ (receiving 63 []).state = .receiving ∧
      (0x41 : Byte) ≠ (receiving 63 []).cfg.startMarker ∧
      (0x41 : Byte) ≠ (receiving 63 []).cfg.endMarker ∧
      (receiving 63 []).rxIndex < (receiving 63 []).cfg.rxBufSize - 1 := by
  decide

theorem witness_OverflowDiscardsFrame :
    (receiving 64 []).ready = true ∧ (receiving 64 []).state = .receiving ∧
      (0x41 : Byte) ≠ (receiving 64 []).cfg.startMarker ∧
      (0x41 : Byte) ≠ (receiving 64 []).cfg.endMarker ∧
      (receiving 64 []).rxIndex = (receiving 64 []).cfg.rxBufSize - 1 := by
  decide

theorem witness_PayloadStringIsReceivedText :
    Memory.wf 0x00 mid.rxBuf = true ∧ 64 ≤ mid.cfg.maxPayload := by
  decide

theorem witness_FrameOnTheWireRunsItsPayload :
    mid.ready = true ∧ Memory.wf 0x00 mid.rxBuf = true ∧
      (List.replicate 64 (0x41 : Byte)).length ≤ mid.cfg.maxPayload ∧
      ∀ b ∈ List.replicate 64 (0x41 : Byte), b ≠ mid.cfg.startMarker ∧ b ≠ mid.cfg.endMarker := by
  refine ⟨by decide, by decide, by decide, fun b hb => ?_⟩
  rw [(List.mem_replicate.mp hb).2]
  decide

theorem witness_OverlongRunOverflowsOnce :
    mid.ready = true ∧ Memory.wf 0x00 mid.rxBuf = true ∧ (List.replicate 65 (0x41 : Byte)).length = mid.cfg.maxPayload + 1 ∧
      (∀ b ∈ List.replicate 65 (0x41 : Byte), b ≠ mid.cfg.startMarker ∧ b ≠ mid.cfg.endMarker) ∧
      ∀ b ∈ ([0x41, 0x45] : Text), b ≠ mid.cfg.startMarker := by
  refine ⟨by decide, by decide, by decide, fun b hb => ?_, by decide⟩
  rw [(List.mem_replicate.mp hb).2]
  decide

theorem witness_OneResponsePerCompletedFrame :
    mid.Inv ∧ (got (rxBytes [0x45] 0 mid).1 State.output).isSome = true ∧
      mid.cfg.ctrOverflow = .wrap :=
  ⟨mid_inv, by decide, by decide⟩

theorem witness_MoveCommandMeaning :
    frameOpen.ready = true ∧
      tokenize frameOpen.cfg frameOpen.cfg.maxParams [0x30, 0x2C, 0x30] = some (0 :: 0 :: []) ∧
      tokenize frameOpen.cfg frameOpen.cfg.maxParams [0x30, 0x2C] = some [0] ∧
      skipWs Config.reference [0x20] = [] ∧ skipWs Config.reference [0x2C] ≠ [] ∧
      numParse Config.reference [0x2C] = none ∧
      numParse Config.reference [0x30, 0x20, 0x2C] = some (0, [0x20, 0x2C]) ∧
      skipWs Config.reference [0x20, 0x2C] = Config.reference.sepParam :: [] ∧
      numParse Config.reference [0x30, 0x78] = some (0, [0x78]) ∧
      (∀ more, skipWs Config.reference [0x78] ≠ Config.reference.sepParam :: more) := by
  refine ⟨by decide, by decide +kernel, by decide +kernel, by decide, by decide, by decide +kernel,
    by decide +kernel, by decide, by decide +kernel, fun more h => ?_⟩
  simp [skipWs, isWs, Config.reference] at h

theorem witness_BareCommandsMeaning : frameOpen.ready = true := by decide

theorem witness_SpeedCommandsMeaning :
    frameOpen.ready = true ∧ skipWs frameOpen.cfg [0x20] = [] ∧ skipWs frameOpen.cfg [0x2C] ≠ [] ∧
      numParse frameOpen.cfg (skipWs frameOpen.cfg [0x2C]) = none ∧
      numParse frameOpen.cfg (skipWs frameOpen.cfg [0x30, 0x78]) = some (0, [0x78]) ∧
      (Instr.sr [0x30], Code.sr, Action.moveRight) ∈
        [(Instr.sf [0x30], Code.sf, Action.moveForward), (.sb [0x30], .sb, .moveBackwards),
          (.sl [0x30], .sl, .moveLeft), (.sr [0x30], .sr, .moveRight)] := by
  decide +kernel

theorem witness_RejectedFrame : frameOpen.ready = true := by decide

theorem witness_AcceptedFrame :
    mid.count ≠ mid.cfg.cmdCapacity ∧ fullQ8.count = fullQ8.cfg.cmdCapacity := by
  decide

theorem witness_DecodedCommandShape :
    decodePayload Config.reference [0x6D, 0x76, 0x30, 0x2C, 0x30] = .ok ⟨0, .mv, .stop, [0, 0]⟩ ∧
      decodePayload Config.reference [0x53, 0x52] =
        .ok ⟨0, .sr, .moveRight, [Config.reference.defaultSpeed]⟩ := by
  decide +kernel

theorem witness_ClassifierOnValues :
    f64IsNan 0x8000000000000001 = false ∧ f64IsNan 0x7FF0000000000000 = false := by decide +kernel

theorem witness_ClassifierOnNan : f64IsNan 0x7FF8000000000000 = true := by decide +kernel

theorem witness_DecimalValueIsNearest :
    Config.reference.numParseOther.lookup [0x2E] = none ∧ numParse Config.reference [0x2E] = none ∧
      numParse Config.reference [0x31, 0x78] = some (0x3FF0000000000000, [0x78]) ∧
      f64IsFinite (f64OfDecimal false 17976931348623157 292) = true ∧
      f64IsFinite (f64OfDecimal true 1 (-1)) = true ∧ f64IsFinite 0x3FB999999999999A = true ∧
      f64IsFinite (f64OfDecimal true 1 309) = false ∧ f64Mag (f64OfDecimal true 2 (-324)) = 0 ∧
      ([([0x31], none), ([0x32], some (0, 1))] : List (Text × Option (F64 × Nat))).lookup [0x31] =
        some none ∧
      ([([0x31], none), ([0x32], some (0, 1))] : List (Text × Option (F64 × Nat))).lookup [0x32] =
        some (some (0, 1)) := by
  decide +kernel

theorem witness_IntegersAreExact : (9007199254740992 : Int).natAbs ≤ 2 ^ 53 := by decide +kernel

theorem witness_FixedTextIsNearest : f64IsFinite 0x3FD0000000000000 = true := by decide +kernel

theorem witness_CommandTextRoundTrip :
    f64OfDecimal false 75 (-1) = 0x401E000000000000 ∧ f64OfDecimal true 5 (-1) = 0xBFE0000000000000 ∧
      f64OfDecimal false 365 (-1) = 0x4042400000000000 ∧ f64OfDecimal false 1 (-1) = 0x3FB999999999999A ∧
      encodeCommandText Config.reference
        ⟨7, .mv, .moveRight, [0x401E000000000000, 0xBFE0000000000000, 0x4042400000000000,
          0x3FB999999999999A]⟩ 23 =
        .text [0x53, 0x4D, 0x56, 0x3A, 0x37, 0x2E, 0x35, 0x2C, 0x2D, 0x30, 0x2E, 0x35, 0x2C, 0x33, 0x36, 0x2E,
          0x35, 0x2C, 0x30, 0x2E, 0x31, 0x45] ∧
      Action.moveRight = classify 0x401E000000000000 0xBFE0000000000000 ∧
      f64OfDecimal false 2550 (-1) = f64OfInt 255 := by
  decide +kernel

/-- The three forms of R124: `SF10`, `MV 1,2` and `SF::5`. -/
theorem witness_UnrecognizedDecidedByCode :
    isWs Config.reference 0x20 = true ∧ isWs Config.reference 0x53 = false ∧
      isWs Config.reference 0x4D = false ∧
      ([0x31, 0x30] : Text).head? ≠ some Config.reference.sepCode ∧
      ([0x20, 0x31, 0x2C, 0x32] : Text).head? ≠ some Config.reference.sepCode ∧
      ([0x3A, 0x3A, 0x35] : Text) = Config.reference.sepCode :: [0x3A, 0x35] ∧
      decodeCmd Config.reference [0x20, 0x53, 0x46, 0x31, 0x30] = .sf [0x31, 0x30] ∧
      decodeCmd Config.reference [0x4D, 0x56, 0x20, 0x31, 0x2C, 0x32] = .mv [0x20, 0x31, 0x2C, 0x32] ∧
      decodeCmd Config.reference [0x53, 0x46, 0x3A, 0x3A, 0x35] = .sf [0x3A, 0x35] := by
  decide

theorem witness_SuccessorSkipsZero :
    (65534 : Word16).toNat < 65535 ∧ (65535 : Word16).toNat = 65535 := by decide +kernel

theorem witness_BufferInit : mid.ready = true := by decide

theorem witness_BufferEnqueue :
    mid.ready = true ∧ mid.count ≠ mid.cfg.cmdCapacity ∧ fullQ8.ready = true ∧
      fullQ8.count = fullQ8.cfg.cmdCapacity := by
  decide

theorem witness_DequeueReturnsOldest :
    State.reset.ready = true ∧ State.reset.count = 0 ∧ mid.ready = true ∧ mid.count ≠ 0 ∧
      mid.head < mid.cfg.cmdCapacity ∧ Instr.getNextCommand ∈ [Instr.cbDequeue, .getNextCommand] := by
  decide

theorem witness_QueriesAnswerCount : fullQ8.ready = true := by decide

theorem witness_BufferIsBoundedFifo :
    mid.cfg.ok = true ∧ mid.head < mid.cfg.cmdCapacity ∧ mid.count ≤ mid.cfg.cmdCapacity ∧
      Memory.wf blankCommand mid.ring = true ∧ mid.count ≠ 0 ∧
      fullQ8.head < fullQ8.cfg.cmdCapacity ∧ fullQ8.count ≤ fullQ8.cfg.cmdCapacity ∧
      Memory.wf blankCommand fullQ8.ring = true := by
  decide

theorem witness_EleventhEnqueueEvictsFirst :
    State.reset.cfg.ok = true ∧ State.reset.cfg.cmdCapacity = 10 ∧ State.reset.head < 10 ∧
      State.reset.count = 0 ∧ Memory.wf blankCommand State.reset.ring = true ∧
      (List.replicate 10 blankCommand).length = 10 := by
  decide

theorem witness_InitSessionResets :
    mid.cfg.ok = true ∧ uninitialised.initialised = false ∧
      uninitialised.inbox = .op [0x00] :: [] := by
  decide

theorem witness_StatisticsReadAndClear : mid.ready = true := by decide

theorem witness_ResponsesAreSent :
    mid.ready = true ∧
      (Instr.respNack, Kind.nack) ∈
        [(Instr.sendResponse .nack, Kind.nack), (.respOk, .ok), (.respNack, .nack),
          (.respErrInvalidCommand, .errInvalidCommand), (.respErrInvalidParams, .errInvalidParams),
          (.respErrBufferFull, .errBufferFull)] := by
  decide

theorem witness_TelemetryIsSentIfItFits :
    ({ State.reset with cfg := { Config.reference with txBufSize := 37 } } : State).ready = true ∧
      ({ State.reset with cfg := { Config.reference with txBufSize := 36 } } : State).ready = true ∧
      sampleFinite t1 = true ∧ Instr.tel t1 ∈ [Instr.sendTelemetry t1, .tel t1] ∧
      (telemetryFrame { Config.reference with txBufSize := 37 } t1).length + 1 = 37 ∧
      (telemetryFrame { Config.reference with txBufSize := 36 } t1).length + 1 = 36 + 1 := by
  decide +kernel

theorem witness_PollingDrainsTheSource : mid.ready = true ∧ mid.Inv := ⟨by decide, mid_inv⟩

theorem witness_PollingEqualsInterrupts :
    mid.ready = true ∧ mid.Inv ∧ mid.source = [] ∧ mid.inbox = [] :=
  ⟨by decide, mid_inv, rfl, rfl⟩

theorem witness_ConsumerLeavesAssemblerAlone :
    consumerOp .getNextCommand = true ∧ ∃ t, exec .getNextCommand mid = .next t :=
  ⟨by decide, _, rfl⟩

theorem witness_EncodeCommandAnswers :
    State.reset.ready = true ∧ (∀ v ∈ ([0x406FE00000000000] : List F64), f64IsFinite v = true) ∧
      letters .sf = some [0x53, 0x46] ∧ State.reset.cfg.cmdEncMin ≤ 11 ∧
      (commandFrame State.reset.cfg [0x53, 0x46] [0x406FE00000000000]).length + 1 ≤ 11 ∧
      10 < (commandFrame State.reset.cfg [0x53, 0x46] [0x406FE00000000000]).length + 1 ∧
      7 < State.reset.cfg.cmdEncMin ∧
      (⟨0, .unknown, .stop, [0x7FF0000000000000]⟩ : Command).code = .unknown := by
  refine ⟨by decide, fun v hv => ?_, by decide, by decide, by decide +kernel, by decide +kernel, by decide,
    rfl⟩
  rw [List.mem_singleton.mp hv]
  decide +kernel

theorem witness_EncodeTelemetryAnswers :
    State.reset.ready = true ∧ sampleFinite t1 = true ∧ State.reset.cfg.telEncMin ≤ 37 ∧
      (telemetryFrame State.reset.cfg t1).length + 1 ≤ 37 ∧
      36 < (telemetryFrame State.reset.cfg t1).length + 1 ∧ 31 < State.reset.cfg.telEncMin := by
  decide +kernel

theorem witness_NonFiniteTextIsRefused :
    State.reset.ready = true ∧ State.reset.cfg.cmdEncMin ≤ 8 ∧ Code.mv ≠ .unknown ∧
      (∃ v ∈ ([0x7FF0000000000000, 0] : List F64), f64IsFinite v = false) ∧
      sampleFinite ⟨0, 0, 0xFFF8000000000000, 0, 0⟩ = false ∧ State.reset.cfg.telEncMin ≤ 32 :=
  ⟨by decide, by decide, by decide, ⟨_, List.mem_cons_self, by decide +kernel⟩, by decide +kernel, by decide⟩

theorem witness_ResponseCodecAnswers : mid.ready = true := by decide

theorem witness_ParsedTextGivesItsKind :
    isWs Config.reference Config.reference.startMarker = false ∧
      (∀ b ∈ (token .nack).head?, isWs Config.reference b = false ∧ b ≠ Config.reference.startMarker) ∧
      (∀ b ∈ telToken.head?, isWs Config.reference b = false ∧ b ≠ Config.reference.startMarker) ∧
      (∀ b ∈ ([0x09, 0x20] : Text), isWs Config.reference b = true) ∧
      startsWith telToken (skipStart Config.reference (skipWs Config.reference [0x6F, 0x6B])) = false ∧
      (∀ k, startsWith (token k) (skipStart Config.reference (skipWs Config.reference [0x6F, 0x6B])) =
        false) ∧
      parseResponseText Config.reference [0x4F, 0x4B, 0x41] = .response .ok := by
  refine ⟨by decide, by decide, by decide, by decide, by decide, fun k => ?_, by decide⟩
  cases k <;> decide

theorem witness_ReceiveBufferFrame :
    rxBufWriter (.rxData 0x41) = true ∧ (∃ t, exec (.rxData 0x41) mid = .next t) ∧
      rxBufWriter .cbCount = false ∧ (∃ t, exec .cbCount mid = .next t) ∧
      Instr.cbCount ≠ .processAvailableInput ∧ Instr.rxData 0x41 ≠ .processAvailableInput :=
  ⟨by decide, ⟨_, rfl⟩, by decide, ⟨_, rfl⟩, by decide, by decide⟩

theorem witness_CommandRingFrame :
    ringWriter (.gt []) = true ∧ (∃ t, exec (.gt []) fullQ8 = .next t) ∧
      ringWriter .cbDequeue = false ∧ (∃ t, exec .cbDequeue mid = .next t) ∧
      Instr.cbDequeue ≠ .processAvailableInput ∧ Instr.gt [] ≠ .processAvailableInput ∧
      Instr.cbDequeue ≠ .initSession ∧ Instr.cbDequeue ≠ .cbInit :=
  ⟨by decide, ⟨_, rfl⟩, by decide, ⟨_, rfl⟩, by decide, by decide, by decide, by decide⟩

theorem witness_CountersCountTheirEvents :
    (4294967294 : Word32).toNat < 2 ^ 32 - 1 ∧ (4294967295 : Word32).toNat = 2 ^ 32 - 1 ∧
      (∃ t, exec (.unknownCode [0x58]) mid = .next t) ∧
      Instr.unknownCode [0x58] ≠ .processAvailableInput ∧ Instr.unknownCode [0x58] ≠ .initSession ∧
      Instr.unknownCode [0x58] ≠ .resetStatistics :=
  ⟨by decide, by decide, ⟨_, rfl⟩, by decide, by decide, by decide⟩

theorem witness_StepKeepsConfiguration :
    mid.initialised = true ∧ (∃ t, step (wire 0x53 mid) = .next t) ∧
      (∃ t, step (asked (.arrive [0x53]) mid) = .next t ∧ t.source = mid.source ++ [0x53]) ∧
      (∃ t, exec .processAvailableInput mid = .next t) ∧ Instr.cbCount ≠ .processAvailableInput ∧
      ∃ t, exec .cbCount mid = .next t :=
  ⟨by decide, ⟨_, rfl⟩, ⟨_, rfl, rfl⟩, ⟨_, rfl⟩, by decide, _, rfl⟩

theorem witness_StepKeepsInvariant : mid.Inv ∧ ∃ t, step mid = .next t := ⟨mid_inv, _, rfl⟩

theorem witness_StepNeverFaults : mid.Inv := mid_inv

/-- `mid` with another stale cell of RXBUF and another unqueued slot of RING. -/
def midStale : State :=
  { mid with
    rxBuf := [(0, 0x47), (1, 0x54), (2, 0x21), (3, 0xFF)]
    ring := [(0, ⟨8, .st, .stop, []⟩), (4, ⟨3, .st, .stop, []⟩), (9, ⟨7, .gt, .getTelemetry, []⟩)] }

theorem witness_StaleContentsAreUnobservable : mid.Inv ∧ midStale.Inv ∧ mid.Alike midStale := by
  refine ⟨mid_inv, ?_, rfl, ?_, ?_⟩
  · refine ⟨by decide, by decide, by decide, by decide, by decide, by decide, by decide, by decide,
      by decide, by decide, ?_, ?_, ?_, ?_⟩
    · intro k hk
      obtain rfl : k = 1 := by simp only [midStale, mid] at hk; omega
      decide
    · intro k hk
      have hk2 : k < 2 := hk
      interval_cases k <;> decide
    · intro k hk
      have hk2 : k < 2 := hk
      interval_cases k <;> decide
    · intro k hk
      obtain rfl : k = 0 := by simp only [midStale, mid] at hk; omega
      decide
  · intro a ha
    have ha3 : a < 3 := ha
    interval_cases a <;> decide
  · intro k hk
    have hk2 : k < 2 := hk
    interval_cases k <;> decide

theorem witness_UpperCaseStopIsNotReceived :
    mid.initialised = true ∧ mid.Inv ∧ mid.cfg = Config.reference :=
  ⟨by decide, mid_inv, rfl⟩

end Sys2Proof.Tests
end

section
/-!
SUPPORT. Where a step's instruction comes from: the row a received byte selects, the bytes of a request,
and the step in each case of its fetch (spec 30_encoding R74, 40 R106, log entries 5 and 9).
-/

namespace Sys2Proof.Machine

/-! ### The row of a received byte -/

/-- The row of format RXBYTE that `RxByte` runs for a byte (R106). -/
def State.rxRow (s : State) (b : Byte) : Instr :=
  if s.state = .waitingStart then
    if b = s.cfg.startMarker then .wsStart b else .wsDrop b
  else if b = s.cfg.startMarker then .rxRestart b
  else if b = s.cfg.endMarker then .rxEnd b
  else if s.rxIndex < s.cfg.rxBufSize - 1 then .rxData b
  else .rxOverflow b

/-- The selected row is a row of the byte. -/
theorem rxRow_mem (s : State) (b : Byte) : s.rxRow b ∈ rxRows b := by
  unfold State.rxRow
  split_ifs <;> simp [rxRows]

/-- The decode word of R74 selects the row of R106. -/
theorem decodeRx_rxWord (s : State) (b : Byte) : decodeRx (s.rxWord b) b = .instr (s.rxRow b) := by
  unfold State.rxWord State.notWaiting State.rxFull classBits State.rxRow
  by_cases hw : s.state = .waitingStart <;> by_cases hi : s.rxIndex < s.cfg.rxBufSize - 1 <;>
    simp only [hw, hi, ne_eq, not_true_eq_false, not_false_eq_true, decide_true, decide_false,
      Bool.not_true, Bool.not_false, if_true, if_false] <;>
    split_ifs <;> rfl

/-- The bytes made of a received byte decode to the row of R106. -/
theorem decode_rxBytesOf (c : Config) (s : State) (b : Byte) :
    decode c .rx (s.rxBytesOf b) = .instr (s.rxRow b) := by
  have hlt : (s.rxWord b).toNat < 16 := (s.rxWord b).isLt
  have hbyte : (BitVec.ofNat 8 (s.rxWord b).toNat).toNat = (s.rxWord b).toNat :=
    Nat.mod_eq_of_lt (by omega)
  simp only [decode, State.rxBytesOf]
  rw [hbyte, if_neg (not_le.mpr hlt), BitVec.ofNat_toNat, BitVec.setWidth_eq, decodeRx_rxWord]

/-- `RxByte` is the meaning of the selected row. -/
theorem exec_rxRow (s : State) (b : Byte) : exec (s.rxRow b) s = rxByte b s := by
  unfold State.rxRow rxByte
  split_ifs <;> rfl

/-- A row of format RXBYTE that answers a next state was the selected one. -/
theorem eq_rxRow_of_exec_next {s t : State} {b : Byte} {i : Instr} (hi : i ∈ rxRows b)
    (h : exec i s = .next t) : i = s.rxRow b := by
  suffices decodeRx (s.rxWord b) b = .instr i by
    rw [decodeRx_rxWord] at this
    exact (Decoded.instr.inj this).symm
  simp only [rxRows, List.mem_cons, List.not_mem_nil, or_false] at hi
  rcases hi with rfl | rfl | rfl | rfl | rfl | rfl <;>
    exact (selected_next.mp (whenReady_next.mp h).2).1

/-- A row of format RXBYTE that answers a next state is `RxByte` of its byte. -/
theorem rxByte_of_exec_next {s t : State} {b : Byte} {i : Instr} (hi : i ∈ rxRows b)
    (h : exec i s = .next t) : rxByte b s = .next t := by
  rw [← exec_rxRow, ← eq_rxRow_of_exec_next hi h, h]

/-! ### The bytes of a request -/

/-- The bytes the fetch decodes for a request, and how it reads them; bytes the link delivers are no event
of the block. -/
def Request.word (s : State) : Request → Option (Format × Text)
  | .rxByte b => some (.rx, s.rxBytesOf b)
  | .op bytes => some (.op, bytes)
  | .tx bytes => some (.tx, bytes)
  | .arrive _ => none

/-- A request with bytes to decode is fetched by decoding them. -/
theorem fetchRequest_of_word {r : Request} {s : State} {f : Format} {bytes : Text}
    (h : r.word s = some (f, bytes)) : fetchRequest r s = fetchedOf (decode s.cfg f bytes) s := by
  cases r <;> simp only [Request.word, Option.some.injEq, Prod.mk.injEq, reduceCtorEq] at h <;>
    obtain ⟨rfl, rfl⟩ := h <;> rfl

/-- Only delivered bytes are no event of the block. -/
theorem word_eq_none {r : Request} {s : State} :
    r.word s = none ↔ ∃ bytes, r = .arrive bytes := by
  cases r <;> simp [Request.word]

/-! ### The step in each case of its fetch -/

/-- A C string holds no NUL, so the fetch reads all of it (R17, R107). -/
theorem untilNul_cstr (m : List Host.Cell) (n a : Nat) : untilNul (cstr m n a) = cstr m n a := by
  induction n generalizing a with
  | zero => rfl
  | succ n ih =>
    simp only [cstr]
    split
    · rfl
    · rename_i hb
      simp only [untilNul, if_neg hb, ih]

@[simp] theorem untilNul_payloadString (s : State) : untilNul s.payloadString = s.payloadString :=
  untilNul_cstr s.rxBuf s.cfg.rxBufSize 0

/-- A waiting frame's command runs (R103). -/
theorem step_of_frameWaiting {s : State} (h : s.frameWaiting = true) :
    step s = exec (decodeCmd s.cfg s.payloadString) s := by
  simp [step, fetch, h, decode, fetchedOf]

/-- With no frame waiting and no request the block waits (R227). -/
theorem step_of_inbox_nil {s : State} (h : s.frameWaiting = false) (hi : s.inbox = []) :
    step s = .next s := by
  simp [step, fetch, h, hi]

/-- Delivered bytes join the byte source (R46, R166). -/
theorem step_of_arrive {s : State} {bytes : Text} {rest : List Request} (h : s.frameWaiting = false)
    (hi : s.inbox = .arrive bytes :: rest) :
    step s = .next { s with inbox := rest, source := s.source ++ bytes } := by
  simp [step, fetch, h, hi, fetchRequest]

/-- A request's bytes that decode run, with the request taken. -/
theorem step_of_decode {s : State} {r : Request} {rest : List Request} {f : Format} {bytes : Text}
    {i : Instr} (h : s.frameWaiting = false) (hi : s.inbox = r :: rest)
    (hw : r.word s = some (f, bytes)) (hd : decode s.cfg f bytes = .instr i) :
    step s = exec i { s with inbox := rest } := by
  have hf : fetchRequest r { s with inbox := rest } = _ := fetchRequest_of_word hw
  simp [step, fetch, h, hi, hf, hd, fetchedOf]

/-- A request's bytes that are no instruction are refused by name. -/
theorem step_of_reject {s : State} {r : Request} {rest : List Request} {f : Format} {bytes : Text}
    {e : DecodeError} (h : s.frameWaiting = false) (hi : s.inbox = r :: rest)
    (hw : r.word s = some (f, bytes)) (hd : decode s.cfg f bytes = .reject e) :
    step s = .refused (.undecodable e) := by
  have hf : fetchRequest r { s with inbox := rest } = _ := fetchRequest_of_word hw
  simp [step, fetch, h, hi, hf, hd, fetchedOf]

/-- The step of a received byte is `RxByte` (R106). -/
theorem step_of_rxByte {s : State} {b : Byte} {rest : List Request} (h : s.frameWaiting = false)
    (hi : s.inbox = .rxByte b :: rest) : step s = rxByte b { s with inbox := rest } := by
  rw [step_of_decode h hi rfl (decode_rxBytesOf s.cfg s b)]
  exact exec_rxRow { s with inbox := rest } b

/-- What a step that answers a next state worked on. -/
theorem step_next {s t : State} (h : step s = .next t) :
    (s.frameWaiting = true ∧ exec (decodeCmd s.cfg s.payloadString) s = .next t) ∨
      (s.inbox = [] ∧ t = s) ∨
      (∃ bytes rest, s.inbox = .arrive bytes :: rest ∧
        t = { s with inbox := rest, source := s.source ++ bytes }) ∨
      (∃ r rest f bytes i, s.inbox = r :: rest ∧ r.word s = some (f, bytes) ∧
        decode s.cfg f bytes = .instr i ∧ exec i { s with inbox := rest } = .next t) := by
  cases hw : s.frameWaiting with
  | true => exact .inl ⟨rfl, step_of_frameWaiting hw ▸ h⟩
  | false =>
    refine .inr ?_
    match hi : s.inbox with
    | [] => exact .inl ⟨rfl, by simpa [step_of_inbox_nil hw hi, eq_comm] using h⟩
    | r :: rest =>
      refine .inr ?_
      match hr : r.word s with
      | none =>
        obtain ⟨bytes, rfl⟩ := word_eq_none.mp hr
        exact .inl ⟨bytes, rest, rfl, by simpa [step_of_arrive hw hi, eq_comm] using h⟩
      | some (f, bytes) =>
        match hd : decode s.cfg f bytes with
        | .instr i => exact .inr ⟨r, rest, f, bytes, i, rfl, hr, hd, step_of_decode hw hi hr hd ▸ h⟩
        | .reject e => simp [step_of_reject hw hi hr hd] at h

/-! ### The step runs what it decodes -/

/-- Settles O5: each clause is the step in one case of its fetch. -/
theorem stepRunsTheDecodedInstruction : Obligations.StepRunsTheDecodedInstruction := by
  intro s
  refine ⟨fun hi hs => ?_, fun hn => ?_⟩
  · exact step_of_frameWaiting (frameWaiting_iff.mpr ⟨hi, hs⟩)
  · have hw := frameWaiting_eq_false.mpr hn
    refine ⟨step_of_inbox_nil hw, fun rest => ⟨fun bytes => step_of_arrive hw, ?_⟩⟩
    intro f bytes hr
    obtain ⟨r, hi, hrw⟩ : ∃ r : Request, s.inbox = r :: rest ∧ r.word s = some (f, bytes) := by
      obtain ⟨b, hi, rfl, rfl⟩ | ⟨hi, rfl⟩ | ⟨hi, rfl⟩ := hr <;> exact ⟨_, hi, rfl⟩
    exact ⟨fun i => step_of_decode hw hi hrw, fun e => step_of_reject hw hi hrw⟩

/-! ### Refusals -/

/-- An event before the first `init_session` is refused (R176). -/
theorem whenReady_of_not_initialised {s : State} (hc : s.cfg.ok = true) (hi : s.initialised = false)
    (o : Out) : whenReady s o = .refused .notInitialised := by
  simp [whenReady, configured, hc, hi]

/-- Under parameters that break R7 every event is refused (item U14). -/
theorem configured_of_not_ok {s : State} (hc : s.cfg.ok = false) (o : Out) :
    configured s o = .refused .badConfig := by
  simp [configured, hc]

/-- Every instruction but `init_session` is an event that waits for readiness (R176). -/
theorem exec_eq_whenReady {i : Instr} (hi : i ≠ .initSession) (s : State) :
    ∃ o, exec i s = whenReady s o := by
  cases i with
  | initSession => exact absurd rfl hi
  | _ => exact ⟨_, rfl⟩

/-- Every instruction is an event of a configuration that R7 allows. -/
theorem exec_eq_configured (i : Instr) (s : State) : ∃ o, exec i s = configured s o := by
  by_cases hi : i = .initSession
  · subst hi
    exact ⟨_, rfl⟩
  · obtain ⟨o, h⟩ := exec_eq_whenReady hi s
    exact ⟨_, h⟩

/-- An instruction that answers a next state ran under parameters that keep R7. -/
theorem cfgOk_of_exec_next {i : Instr} {s t : State} (h : exec i s = .next t) : s.cfg.ok = true := by
  obtain ⟨o, ho⟩ := exec_eq_configured i s
  exact (configured_next.mp (ho ▸ h)).1

/-- No row of a received byte is `init_session`. -/
theorem rxRow_ne_initSession (s : State) (b : Byte) : s.rxRow b ≠ .initSession := by
  intro h
  simpa [h, rxRows] using rxRow_mem s b

/-- Before the first `init_session` every other instruction is refused (R176). -/
theorem exec_of_not_initialised {i : Instr} {s : State} (hc : s.cfg.ok = true)
    (hn : s.initialised = false) (hi : i ≠ .initSession) : exec i s = .refused .notInitialised := by
  obtain ⟨o, ho⟩ := exec_eq_whenReady hi s
  rw [ho, whenReady_of_not_initialised hc hn]

/-- Settles O8: `exec` guards every instruction by the configuration, and all but `init_session` by the
initialisation; the step of a received byte is one of the guarded rows. -/
theorem refusedWhenNotReady : Obligations.RefusedWhenNotReady := by
  intro s i
  refine ⟨fun hc => ?_, exec_of_not_initialised, fun b rest hc hn hi => ?_⟩
  · obtain ⟨o, ho⟩ := exec_eq_configured i s
    rw [ho, configured_of_not_ok hc]
  · rw [step_of_rxByte (frameWaiting_eq_false.mpr (.inl hn)) hi, ← exec_rxRow]
    exact exec_of_not_initialised hc hn (rxRow_ne_initSession _ b)

end Sys2Proof.Machine
end

section
/-!
SUPPORT. The scan of a parameter substring, case by case (spec 41 R136, R137), and the meaning of MV (R128).
-/

namespace Sys2Proof.Machine

/-! ### The tokenizer, case by case -/

/-- The text is its leading whitespace and what `skip_ws` leaves (R17). -/
theorem skipWs_spec (c : Config) (text : Text) :
    ∃ white, text = white ++ skipWs c text ∧ (∀ b ∈ white, isWs c b = true) ∧
      ∀ b more, skipWs c text = b :: more → isWs c b = false := by
  induction text with
  | nil => exact ⟨[], by simp [skipWs]⟩
  | cons a text ih =>
    by_cases ha : isWs c a = true
    · obtain ⟨white, htext, hwhite, hfirst⟩ := ih
      have hskip : skipWs c (a :: text) = skipWs c text := by simp [skipWs, ha]
      rw [hskip]
      exact ⟨a :: white, by rw [List.cons_append, ← htext], by simpa [ha] using hwhite, hfirst⟩
    · exact ⟨[], by simp [skipWs, ha]⟩

@[simp] theorem tokenize_zero (c : Config) (text : Text) : tokenize c 0 text = some [] := rfl

/-- No token at an empty position. -/
theorem tokenize_of_skipWs_nil {c : Config} {text : Text} (max : Nat) (h : skipWs c text = []) :
    tokenize c (max + 1) text = some [] := by
  simp [tokenize, h]

/-- The scan fails where no number starts. -/
theorem tokenize_of_no_number {c : Config} {text : Text} (max : Nat) (h : skipWs c text ≠ [])
    (hn : numParse c (skipWs c text) = none) : tokenize c (max + 1) text = none := by
  obtain ⟨b, s1, hs⟩ := List.exists_cons_of_ne_nil h
  rw [hs] at hn
  simp [tokenize, hs, hn]

/-- After a number a separator continues with one token fewer. -/
theorem tokenize_of_separator {c : Config} {text rest more : Text} {v : F64} (max : Nat)
    (h : skipWs c text ≠ []) (hn : numParse c (skipWs c text) = some (v, rest))
    (hr : skipWs c rest = c.sepParam :: more) :
    tokenize c (max + 1) text = (tokenize c max more).map fun vs => v :: vs := by
  obtain ⟨b, s1, hs⟩ := List.exists_cons_of_ne_nil h
  rw [hs] at hn
  simp only [tokenize, hs, hn, hr, if_true]
  cases tokenize c max more <;> rfl

/-- After a number anything but a separator stops the scan. -/
theorem tokenize_of_no_separator {c : Config} {text rest : Text} {v : F64} (max : Nat)
    (h : skipWs c text ≠ []) (hn : numParse c (skipWs c text) = some (v, rest))
    (hr : ∀ more, skipWs c rest ≠ c.sepParam :: more) : tokenize c (max + 1) text = some [v] := by
  obtain ⟨b, s1, hs⟩ := List.exists_cons_of_ne_nil h
  rw [hs] at hn
  match hrest : skipWs c rest with
  | [] => simp [tokenize, hs, hn, hrest]
  | b' :: s3 =>
    have hb : b' ≠ c.sepParam := fun hb => hr s3 (hb ▸ hrest)
    simp [tokenize, hs, hn, hrest, hb]

/-- The cases of a scan that may take a token. -/
theorem tokenize_succ_cases (c : Config) (max : Nat) (text : Text) :
    tokenize c (max + 1) text = some [] ∨ tokenize c (max + 1) text = none ∨
      (∃ v more, tokenize c (max + 1) text = (tokenize c max more).map fun vs => v :: vs) ∨
      ∃ v, tokenize c (max + 1) text = some [v] := by
  by_cases h : skipWs c text = []
  · exact .inl (tokenize_of_skipWs_nil max h)
  match hn : numParse c (skipWs c text) with
  | none => exact .inr (.inl (tokenize_of_no_number max h hn))
  | some (v, rest) =>
    by_cases hr : ∃ more, skipWs c rest = c.sepParam :: more
    · obtain ⟨more, hr⟩ := hr
      exact .inr (.inr (.inl ⟨v, more, tokenize_of_separator max h hn hr⟩))
    · exact .inr (.inr (.inr ⟨v, tokenize_of_no_separator max h hn (not_exists.mp hr)⟩))

/-- A scan gives at most the maximum of tokens (R136). -/
theorem tokenize_length_le {c : Config} {max : Nat} {text : Text} {vs : List F64}
    (h : tokenize c max text = some vs) : vs.length ≤ max := by
  induction max generalizing text vs with
  | zero =>
    obtain rfl : [] = vs := by simpa using h
    exact Nat.le_refl 0
  | succ max ih =>
    obtain hc | hc | ⟨v, more, hc⟩ | ⟨v, hc⟩ := tokenize_succ_cases c max text <;> rw [hc] at h
    · obtain rfl : [] = vs := by simpa using h
      exact Nat.zero_le _
    · cases h
    · obtain ⟨ws, hws, rfl⟩ := Option.map_eq_some_iff.mp h
      exact Nat.succ_le_succ (ih hws)
    · obtain rfl : [v] = vs := by simpa using h
      exact Nat.succ_le_succ (Nat.zero_le max)

/-! ### MV -/

/-- A scan of at least two numbers is accepted whole, with the action of the first two (R128). -/
theorem decodeMove_of_two {c : Config} {tail : Text} {l r : F64} {more : List F64}
    (h : tokenize c c.maxParams tail = some (l :: r :: more)) :
    decodeMove c tail = .ok ⟨0, .mv, classify l r, l :: r :: more⟩ := by
  simp [decodeMove, h]

/-- Any other scan is `InvalidParams` (R128). -/
theorem decodeMove_of_fewer {c : Config} {tail : Text}
    (h : ∀ l r more, tokenize c c.maxParams tail ≠ some (l :: r :: more)) :
    decodeMove c tail = .invalidParams := by
  match ht : tokenize c c.maxParams tail with
  | none => simp [decodeMove, ht]
  | some [] => simp [decodeMove, ht]
  | some [_] => simp [decodeMove, ht]
  | some (l :: r :: more) => exact absurd ht (h l r more)

/-- In a ready session MV finishes the frame with its decoded tail. -/
theorem exec_mv_of_ready {s : State} (h : s.ready = true) (tail : Text) :
    exec (.mv tail) s = .next (finishFrame (decodeMove s.cfg tail) s) :=
  whenReady_of_ready h _

/-- Settles O19: MV by the two cases of its decoded tail, the scan by the cases of the tokenizer. -/
theorem moveCommandMeaning : Obligations.MoveCommandMeaning := by
  refine ⟨fun s tail hs => ⟨fun l r more h => ?_, fun h => ?_⟩, fun c max text => ?_⟩
  · rw [exec_mv_of_ready hs, decodeMove_of_two h]
  · rw [exec_mv_of_ready hs, decodeMove_of_fewer h]
  · exact ⟨tokenize_zero c text, tokenize_of_skipWs_nil max,
      fun h => ⟨tokenize_of_no_number max h, fun v rest hn =>
        ⟨fun more => tokenize_of_separator max h hn, tokenize_of_no_separator max h hn⟩⟩,
      skipWs_spec c text⟩

end Sys2Proof.Machine
end

section
/-!
SUPPORT. What an instruction that answers a next state does to the state, said once for all 38 rows, and what
every received byte leaves alone. The parameters, the initialisation, the requests and the byte source follow
(spec 10_state R20, R46, R173, R176).
-/

namespace Sys2Proof.Machine

/-! ### Decoded commands keep `MAX_PARAMS` -/

/-- A decode result whose command, if it is one, holds at most `MAX_PARAMS` parameters (R26). -/
def Payload.Fits (c : Config) (r : Payload) : Prop := ∀ m, r = .ok m → m.params.length ≤ c.maxParams

theorem fits_unrecognizedCommand (c : Config) : Payload.unrecognizedCommand.Fits c := nofun

theorem decodeBare_fits (c : Config) (code : Code) (action : Action) :
    (decodeBare code action).Fits c := by
  rintro m ⟨⟩
  exact Nat.zero_le _

theorem decodeMove_fits (c : Config) (tail : Text) : (decodeMove c tail).Fits c := by
  intro m h
  unfold decodeMove at h
  split at h
  · cases h
  · rename_i t ht
    split at h <;> cases h
    exact tokenize_length_le ht

/-- A constraint of R7. -/
theorem two_le_maxParams {c : Config} (h : c.ok = true) : 2 ≤ c.maxParams := by
  simp only [Config.ok, Bool.and_eq_true, decide_eq_true_eq] at h
  exact h.2

theorem decodeSpeed_fits {c : Config} (hc : c.ok = true) (code : Code) (action : Action)
    (tail : Text) : (decodeSpeed c code action tail).Fits c := by
  have := two_le_maxParams hc
  intro m h
  unfold decodeSpeed at h
  split at h <;> cases h
  simp only [List.length_cons, List.length_nil]
  omega

theorem decodePayload_fits {c : Config} (hc : c.ok = true) (p : Text) : (decodePayload c p).Fits c := by
  unfold decodePayload
  split
  · exact decodeMove_fits c _
  · exact decodeBare_fits c _ _
  · exact decodeBare_fits c _ _
  · exact decodeSpeed_fits hc _ _ _
  · exact decodeSpeed_fits hc _ _ _
  · exact decodeSpeed_fits hc _ _ _
  · exact decodeSpeed_fits hc _ _ _
  · exact fits_unrecognizedCommand c

/-! ### What an instruction does -/

/-- What an instruction that answers a next state does to the state. -/
inductive ExecEffect (s : State) : Instr → State → Prop
  /-- it changes outputs and counters at most -/
  | reported {i : Instr} (o : List Output) (received sent errors overflows : Word32)
      (hi : consumerOp i = true) :
      ExecEffect s i { s with
        output := o, framesReceived := received, framesSent := sent, parseErrors := errors,
        rxOverflows := overflows }
  /-- it is the selected transition of a received byte -/
  | byteReceived {i : Instr} {b : Byte} {t : State} (hi : i ∈ rxRows b) (h : rxByte b s = .next t) :
      ExecEffect s i t
  /-- it finishes a completed frame -/
  | frameFinished {i : Instr} {r : Payload} (hi : commandRow i = true) (hr : r.Fits s.cfg) :
      ExecEffect s i (finishFrame r s)
  | sessionInitialised :
      ExecEffect s .initSession { s.settle.cbInit.clearCounters with initialised := true }
  | sourceDrained {u : State} {n : Nat} (h : (rxBytes s.source 0 { s with source := [] }).1 = .next u) :
      ExecEffect s .processAvailableInput (u.answer (.number n))
  | bufferInitialised : ExecEffect s .cbInit s.cbInit
  | enqueued (m : Command) : ExecEffect s (.cbEnqueue m) ((s.enqueue m).answer (.flag s.isFull))
  /-- it takes the oldest command from a buffer that holds one -/
  | dequeued {i : Instr} (hi : i = .cbDequeue ∨ i = .getNextCommand) (hc : s.count ≠ 0)
      (hh : s.head < s.cfg.cmdCapacity) :
      ExecEffect s i (s.dropOldest.answer (.command (some (s.slot s.head))))

theorem effect_of_dequeue {s t : State} {i : Instr} (hi : i = .cbDequeue ∨ i = .getNextCommand)
    (h : dequeue s = .next t) : ExecEffect s i t := by
  obtain ⟨-, rfl⟩ | ⟨hc, hh, rfl⟩ := dequeue_next.mp h
  · exact .reported _ _ _ _ _ (by rcases hi with rfl | rfl <;> rfl)
  · exact .dequeued hi hc hh

theorem effect_of_answerText {s t : State} {i : Instr} {e : Encoded} (hi : consumerOp i = true)
    (h : answerText e s = .next t) : ExecEffect s i t := by
  obtain ⟨x, -, rfl⟩ | ⟨-, rfl⟩ := answerText_next.mp h <;> exact .reported _ _ _ _ _ hi

theorem effect_of_sendTelemetry {s t : State} {i : Instr} {m : Sample} (hi : consumerOp i = true)
    (h : sendTelemetry m s = .next t) : ExecEffect s i t := by
  obtain ⟨x, -, rfl⟩ | ⟨-, rfl⟩ := sendTelemetry_next.mp h <;> exact .reported _ _ _ _ _ hi

theorem effect_of_rxRow {s t : State} {i : Instr} {b : Byte} (hi : i ∈ rxRows b)
    (h : exec i s = .next t) : ExecEffect s i t :=
  .byteReceived hi (rxByte_of_exec_next hi h)

theorem effect_of_finishFrame {s t : State} {i : Instr} {r : Payload} (hi : commandRow i = true)
    (hr : r.Fits s.cfg) (h : whenReady s (.next (finishFrame r s)) = .next t) : ExecEffect s i t := by
  obtain ⟨-, rfl⟩ : _ ∧ finishFrame r s = t := by simpa using whenReady_next.mp h
  exact .frameFinished hi hr

/-- Every instruction that answers a next state has one of these effects. -/
theorem exec_effect {s t : State} {i : Instr} (h : exec i s = .next t) : ExecEffect s i t := by
  have hc : s.cfg.ok = true := cfgOk_of_exec_next h
  cases i with
  | wsStart b | wsDrop b | rxRestart b | rxEnd b | rxData b | rxOverflow b =>
    exact effect_of_rxRow (b := b) (by simp [rxRows]) h
  | mv tail => exact effect_of_finishFrame rfl (decodeMove_fits _ tail) h
  | st | gt => exact effect_of_finishFrame rfl (decodeBare_fits _ _ _) h
  | sf tail | sb tail | sl tail | sr tail =>
    exact effect_of_finishFrame rfl (decodeSpeed_fits hc _ _ tail) h
  | unknownCode => exact effect_of_finishFrame rfl (fits_unrecognizedCommand _) h
  | initSession =>
    obtain ⟨-, ⟨⟩⟩ := configured_next.mp h
    exact .sessionInitialised
  | processAvailableInput =>
    obtain ⟨-, u, hu, rfl⟩ := execProcessAvailableInput_next.mp h
    exact .sourceDrained hu
  | getNextCommand => exact effect_of_dequeue (.inr rfl) (whenReady_next.mp h).2
  | cbDequeue => exact effect_of_dequeue (.inl rfl) (whenReady_next.mp h).2
  | tel | sendTelemetry => exact effect_of_sendTelemetry rfl (whenReady_next.mp h).2
  | encodeCommand | encodeTelemetry => exact effect_of_answerText rfl (whenReady_next.mp h).2
  | cbInit =>
    obtain ⟨-, ⟨⟩⟩ := whenReady_next.mp h
    exact .bufferInitialised
  | cbEnqueue m =>
    obtain ⟨-, ⟨⟩⟩ := whenReady_next.mp h
    exact .enqueued m
  | respOk | respNack | respErrInvalidCommand | respErrInvalidParams | respErrBufferFull
  | hasPendingCommand | sendResponse | getStatistics | resetStatistics | cbIsEmpty | cbIsFull
  | cbCount | encodeResponse | parseResponse =>
    obtain ⟨-, ⟨⟩⟩ := whenReady_next.mp h
    exact .reported _ _ _ _ _ rfl

/-! ### What received bytes leave alone -/

/-- The parameters, the initialisation, the byte source and the requests to come are the same. -/
structure State.SameSetup (s t : State) : Prop where
  cfg : t.cfg = s.cfg
  initialised : t.initialised = s.initialised
  source : t.source = s.source
  inbox : t.inbox = s.inbox

theorem State.SameSetup.trans {s t u : State} (h : s.SameSetup t) (h' : t.SameSetup u) :
    s.SameSetup u :=
  ⟨h'.cfg.trans h.cfg, h'.initialised.trans h.initialised, h'.source.trans h.source,
    h'.inbox.trans h.inbox⟩

theorem sameSetup_finishFrame (r : Payload) (s : State) : s.SameSetup (finishFrame r s) := by
  obtain ⟨hcfg, hinit, -, -, -, -, -, hsource, hinbox⟩ := finishFrame_frame r s
  exact ⟨hcfg, hinit, hsource, hinbox⟩

/-- A received byte leaves the setup alone. -/
theorem sameSetup_of_rxByte {b : Byte} {s t : State} (h : rxByte b s = .next t) : s.SameSetup t := by
  obtain ⟨-, ⟨-, -, rfl⟩ | ⟨-, -, rfl⟩ | ⟨-, -, rfl⟩ | ⟨-, -, -, hend⟩ | ⟨-, -, -, -, rfl⟩ |
    ⟨-, -, -, -, rfl⟩⟩ := rxByte_next h
  case inr.inr.inr.inl =>
    obtain ⟨-, -, -, u, hu, rfl⟩ := execRxEnd_next.mp hend
    have hclosed : s.SameSetup u := hu ▸ ⟨rfl, rfl, rfl, rfl⟩
    exact hclosed.trans (sameSetup_finishFrame _ u)
  all_goals exact ⟨rfl, rfl, rfl, rfl⟩

/-- So does a sequence of them. -/
theorem sameSetup_of_rxBytes {bytes : Text} {n : Nat} {s t : State}
    (h : (rxBytes bytes n s).1 = .next t) : s.SameSetup t :=
  rxBytes_induct (fun _ => ⟨rfl, rfl, rfl, rfl⟩)
    (fun _ _ _ _ hst hu => hst.trans (sameSetup_of_rxByte hu)) h

theorem sameSetup_enqueue (m : Command) (s : State) : s.SameSetup (s.enqueue m) := by
  obtain ⟨-, h⟩ | ⟨-, h⟩ := enqueue_cases m s <;> rw [h] <;> exact ⟨rfl, rfl, rfl, rfl⟩

/-! ### What every instruction and every step leave alone -/

/-- Every instruction but the two session operations leaves the setup alone. -/
theorem sameSetup_of_exec {i : Instr} {s t : State} (h : exec i s = .next t)
    (hs : i ≠ .initSession) (hp : i ≠ .processAvailableInput) : s.SameSetup t := by
  cases exec_effect h with
  | byteReceived hi hb => exact sameSetup_of_rxByte hb
  | frameFinished => exact sameSetup_finishFrame _ s
  | enqueued m => exact (sameSetup_enqueue m s).trans ⟨rfl, rfl, rfl, rfl⟩
  | sessionInitialised => exact absurd rfl hs
  | sourceDrained => exact absurd rfl hp
  | reported | bufferInitialised | dequeued => exact ⟨rfl, rfl, rfl, rfl⟩

/-- The setup after an instruction. -/
theorem exec_setup {i : Instr} {s t : State} (h : exec i s = .next t) :
    t.cfg = s.cfg ∧ (s.initialised = true → t.initialised = true) ∧ t.inbox = s.inbox ∧
      (i = .processAvailableInput → t.source = []) ∧
      (i ≠ .processAvailableInput → t.source = s.source) := by
  by_cases hs : i = .initSession
  · subst hs
    obtain ⟨-, ⟨⟩⟩ := configured_next.mp h
    exact ⟨rfl, fun _ => rfl, rfl, nofun, fun _ => rfl⟩
  by_cases hp : i = .processAvailableInput
  · subst hp
    obtain ⟨-, u, hu, rfl⟩ := execProcessAvailableInput_next.mp h
    have hsame := sameSetup_of_rxBytes hu
    exact ⟨hsame.cfg, fun hi => hsame.initialised.trans hi, hsame.inbox, fun _ => hsame.source,
      fun hne => absurd rfl hne⟩
  · have hsame := sameSetup_of_exec h hs hp
    exact ⟨hsame.cfg, fun hi => hsame.initialised.trans hi, hsame.inbox, fun hi => absurd hi hp,
      fun _ => hsame.source⟩

/-- No instruction adds bytes to the byte source. -/
theorem exec_source_ne_append {i : Instr} {s t : State} (h : exec i s = .next t) {bytes : Text}
    (hb : bytes ≠ []) : t.source ≠ s.source ++ bytes := by
  obtain ⟨-, -, -, hdrained, hkept⟩ := exec_setup h
  intro heq
  by_cases hp : i = .processAvailableInput
  · rw [hdrained hp] at heq
    exact hb (List.append_eq_nil_iff.mp heq.symm).2
  · rw [hkept hp] at heq
    exact hb (List.self_eq_append_right.mp heq)

/-- Settles O55: by the setup after an instruction, in each case of what the step works on. -/
theorem stepKeepsConfiguration : Obligations.StepKeepsConfiguration := by
  refine ⟨fun s t h => ?_, fun s t i h => ?_⟩
  · obtain ⟨-, hx⟩ | ⟨-, rfl⟩ | ⟨bytes, rest, hi, rfl⟩ | ⟨r, rest, f, bytes, i, hi, -, -, hx⟩ :=
      step_next h
    · obtain ⟨hcfg, hinit, hinbox, -, -⟩ := exec_setup hx
      exact ⟨hcfg, hinit, .inl hinbox, fun new hnew hne => absurd hnew (exec_source_ne_append hx hne)⟩
    · exact ⟨rfl, id, .inl rfl, fun new hnew hne => absurd (List.self_eq_append_right.mp hnew) hne⟩
    · refine ⟨rfl, id, .inr (by rw [hi, List.tail_cons]), fun new hnew _ => ?_⟩
      rw [hi, List.append_cancel_left hnew, List.head?_cons]
    · obtain ⟨hcfg, hinit, hinbox, -, -⟩ := exec_setup hx
      exact ⟨hcfg, hinit, .inr (by rw [hinbox, hi, List.tail_cons]),
        fun new hnew hne => absurd hnew (exec_source_ne_append hx hne)⟩
  · obtain ⟨-, -, hinbox, hsource⟩ := exec_setup h
    exact ⟨hinbox, hsource⟩

end Sys2Proof.Machine
end

section
/-!
SUPPORT. The invariant: what each operation on RXBUF and RING keeps, and the step that keeps all of it
(spec 10_state R22, R23, R31, R42, 42 R153).
-/

namespace Sys2Proof.Machine

/-! ### Decoded operands keep `MAX_PARAMS` (R26) -/

/-- An `n`-fold read gives `n` values. -/
theorem readF64s_length {n : Nat} {s rest : Text} {vs : List F64}
    (h : readF64s n s = some (vs, rest)) : vs.length = n := by
  induction n generalizing s vs rest with
  | zero =>
    obtain ⟨rfl, -⟩ : [] = vs ∧ s = rest := by simpa [readF64s] using h
    rfl
  | succ n ih =>
    simp only [readF64s] at h
    split at h
    · cases h
    · split at h
      · rename_i ws rest' hws
        obtain ⟨rfl, -⟩ := Prod.mk.inj (Option.some.inj h)
        rw [List.length_cons, ih hws]
      · cases h

theorem withKind_instr {s : Text} {k : Kind → Decoded} {i : Instr} (h : withKind s k = .instr i) :
    ∃ kind, k kind = .instr i := by
  unfold withKind at h
  split at h
  · cases h
  · split at h
    · exact ⟨_, h⟩
    · cases h

theorem withSize_instr {s : Text} {k : Nat → Decoded} {i : Instr} (h : withSize s k = .instr i) :
    ∃ n, k n = .instr i := by
  unfold withSize at h
  split at h
  · exact ⟨_, h⟩
  · cases h

theorem withSample_instr {s : Text} {k : Sample → Text → Decoded} {i : Instr}
    (h : withSample s k = .instr i) : ∃ m rest, k m rest = .instr i := by
  unfold withSample at h
  split at h
  · split at h
    · exact ⟨_, _, h⟩
    · cases h
  · cases h

/-- A command that an operand's bytes give holds at most `MAX_PARAMS` parameters. -/
theorem withCommand_instr {c : Config} {s : Text} {k : Command → Text → Decoded} {i : Instr}
    (h : withCommand c s k = .instr i) :
    ∃ m rest, m.params.length ≤ c.maxParams ∧ k m rest = .instr i := by
  unfold withCommand at h
  split at h
  · split at h
    · split at h
      · cases h
      · rename_i hle
        split at h
        · rename_i hread
          exact ⟨_, _, (readF64s_length hread).trans_le (not_lt.mp hle), h⟩
        · cases h
    · cases h
  · cases h

/-- The rows of a received byte are not `cb_enqueue`. -/
theorem decodeRx_ne_cbEnqueue (w : BitVec 4) (b : Byte) (m : Command) :
    decodeRx w b ≠ .instr (.cbEnqueue m) := by
  unfold decodeRx
  split_ifs <;> simp

theorem decodeCmd_ne_cbEnqueue (c : Config) (p : Text) (m : Command) :
    decodeCmd c p ≠ .cbEnqueue m := by
  unfold decodeCmd
  split <;> simp

theorem decodeTx_ne_cbEnqueue (c : Config) (s : Text) (m : Command) :
    decodeTx c s ≠ .instr (.cbEnqueue m) := by
  intro h
  unfold decodeTx at h
  split_ifs at h
  case neg =>
    split at h
    · obtain ⟨_, _, hk⟩ := withSample_instr h
      cases hk
    · cases h
  all_goals cases h

theorem decodeEnc_ne_cbEnqueue (c : Config) (sel : Nat) (s : Text) (m : Command) :
    decodeEnc c sel s ≠ .instr (.cbEnqueue m) := by
  intro h
  unfold decodeEnc at h
  split at h
  · obtain ⟨_, _, -, hsize⟩ := withCommand_instr h
    obtain ⟨_, hk⟩ := withSize_instr hsize
    cases hk
  · obtain ⟨_, _, hsize⟩ := withSample_instr h
    obtain ⟨_, hk⟩ := withSize_instr hsize
    cases hk
  · obtain ⟨_, hk⟩ := withKind_instr h
    cases hk
  · cases h

theorem decodeOp_cbEnqueue_params {c : Config} {s : Text} {m : Command}
    (h : decodeOp c s = .instr (.cbEnqueue m)) : m.params.length ≤ c.maxParams := by
  unfold decodeOp at h
  split at h
  · cases h
  split at h
  · cases h
  split at h
  case h_10 =>
    obtain ⟨_, _, hle, hk⟩ := withCommand_instr h
    cases hk
    exact hle
  case h_5 =>
    obtain ⟨_, hk⟩ := withKind_instr h
    cases hk
  case h_6 =>
    obtain ⟨_, _, hk⟩ := withSample_instr h
    cases hk
  case h_15 => exact absurd h (decodeEnc_ne_cbEnqueue c _ _ m)
  all_goals cases h

/-- A decoded `cb_enqueue` carries a command with at most `MAX_PARAMS` parameters (R26). -/
theorem decode_cbEnqueue_params {c : Config} {f : Format} {s : Text} {m : Command}
    (h : decode c f s = .instr (.cbEnqueue m)) : m.params.length ≤ c.maxParams := by
  cases f with
  | rx =>
    simp only [decode] at h
    split at h
    · split at h
      · cases h
      · exact absurd h (decodeRx_ne_cbEnqueue _ _ m)
    · cases h
  | cmd => exact absurd (Decoded.instr.inj h) (decodeCmd_ne_cbEnqueue c _ m)
  | tx => exact absurd h (decodeTx_ne_cbEnqueue c s m)
  | op => exact decodeOp_cbEnqueue_params h

/-! ### The queue after an append and after a drop -/

/-- Dropping the oldest command moves every other one forward. -/
@[simp] theorem queued_dropOldest (s : State) (k : Nat) : s.dropOldest.queued k = s.queued (k + 1) := by
  simp only [State.queued, State.slot, State.dropOldest_ring, State.dropOldest_head,
    State.dropOldest_cfg, Nat.mod_add_mod]
  rw [Nat.add_right_comm, Nat.add_assoc]

/-- An append leaves the queued commands of a buffer with room alone. -/
theorem queued_append_of_lt {s : State} {k : Nat} (m : Command) (hk : k < s.count)
    (hroom : s.count < s.cfg.cmdCapacity) : (s.append m).queued k = s.queued k := by
  have hne : (s.head + k) % s.cfg.cmdCapacity ≠ (s.head + s.count) % s.cfg.cmdCapacity := by
    intro h
    have := Nat.ModEq.eq_of_lt_of_lt (Nat.ModEq.add_left_cancel' s.head h) (hk.trans hroom) hroom
    omega
  exact Memory.read_write_ne hne _ _

/-- An append stores its stamped command last. -/
theorem queued_append_count {s : State} (hwf : Memory.wf blankCommand s.ring = true) (m : Command) :
    (s.append m).queued s.count = { m with id := succId s.newestId } :=
  Memory.read_write_self hwf _ _

/-- The successor of an id is set (R158). -/
theorem succId_ne_zero (n : Word16) : succId n ≠ 0 := by
  unfold succId
  split <;> bv_omega

/-! ### The two parts of the invariant -/

/-- The part of the invariant about the parameters and the two memories. -/
structure State.StorageOk (s : State) : Prop where
  cfgOk : s.cfg.ok = true
  headLt : s.head < s.cfg.cmdCapacity
  countLe : s.count ≤ s.cfg.cmdCapacity
  rxBufWf : Memory.wf 0x00 s.rxBuf = true
  rxBufBelow : Memory.below s.cfg.rxBufSize s.rxBuf = true
  ringWf : Memory.wf blankCommand s.ring = true
  ringBelow : Memory.below s.cfg.cmdCapacity s.ring = true
  newestIs : ∀ k, k + 1 = s.count → (s.queued k).id = s.newestId
  idsSet : ∀ k, k < s.count → (s.queued k).id ≠ 0
  paramsLe : ∀ k, k < s.count → (s.queued k).params.length ≤ s.cfg.maxParams
  idsConsecutive : ∀ k, k + 1 < s.count → (s.queued (k + 1)).id = succId (s.queued k).id

/-- The part of the invariant about the assembler's registers. -/
structure State.AssemblerOk (s : State) : Prop where
  notFrameReady : s.state ≠ .frameReady
  waitingIndex : s.state = .waitingStart → s.rxIndex = 0
  indexLe : s.rxIndex ≤ s.cfg.maxPayload

theorem inv_iff {s : State} : s.Inv ↔ s.StorageOk ∧ s.AssemblerOk := by
  constructor
  · rintro ⟨h1, h2, h3, h4, h5, h6, h7, h8, h9, h10, h11, h12, h13, h14⟩
    exact ⟨⟨h1, h5, h6, h7, h8, h9, h10, h11, h12, h13, h14⟩, ⟨h2, h3, h4⟩⟩
  · rintro ⟨⟨h1, h5, h6, h7, h8, h9, h10, h11, h12, h13, h14⟩, ⟨h2, h3, h4⟩⟩
    exact ⟨h1, h2, h3, h4, h5, h6, h7, h8, h9, h10, h11, h12, h13, h14⟩

/-- The storage part speaks of six fields only. -/
theorem State.StorageOk.congr {s t : State} (h : s.StorageOk) (hcfg : t.cfg = s.cfg)
    (hbuf : t.rxBuf = s.rxBuf) (hring : t.ring = s.ring) (hhead : t.head = s.head)
    (hcount : t.count = s.count) (hid : t.newestId = s.newestId) : t.StorageOk := by
  cases s
  cases t
  subst hcfg hbuf hring hhead hcount hid
  exact { h with }

/-- The assembler part speaks of three fields only. -/
theorem State.AssemblerOk.congr {s t : State} (h : s.AssemblerOk) (hcfg : t.cfg = s.cfg)
    (hstate : t.state = s.state) (hindex : t.rxIndex = s.rxIndex) : t.AssemblerOk := by
  obtain ⟨hready, hwait, hle⟩ := h
  exact ⟨hstate ▸ hready, by rwa [hstate, hindex], by rwa [hindex, hcfg]⟩

/-- The assembler part holds after a return to `WAITING_START`. -/
theorem assemblerOk_of_settled {s : State} (hs : s.state = .waitingStart) (hi : s.rxIndex = 0) :
    s.AssemblerOk :=
  ⟨by simp [hs], fun _ => hi, hi ▸ Nat.zero_le _⟩

/-! ### What the buffer operations keep -/

/-- A write inside RXBUF keeps the storage part. -/
theorem storageOk_setRxCell {s : State} (h : s.StorageOk) {a : Nat} (ha : a < s.cfg.rxBufSize)
    (b : Byte) : (s.setRxCell a b).StorageOk :=
  { h with
    rxBufWf := Memory.wf_write h.rxBufWf a b
    rxBufBelow := Memory.below_write h.rxBufBelow ha b }

/-- An emptied buffer keeps the storage part: the head is inside a buffer of one slot or more (R7). -/
theorem storageOk_cbInit {s : State} (h : s.StorageOk) : s.cbInit.StorageOk :=
  { h with
    headLt := Nat.zero_lt_of_lt h.headLt
    countLe := Nat.zero_le _
    newestIs := fun _ hk => absurd hk (Nat.succ_ne_zero _)
    idsSet := fun _ hk => absurd hk (Nat.not_lt_zero _)
    paramsLe := fun _ hk => absurd hk (Nat.not_lt_zero _)
    idsConsecutive := fun _ hk => absurd hk (Nat.not_lt_zero _) }

/-- Dropping the oldest command keeps the storage part. -/
theorem storageOk_dropOldest {s : State} (h : s.StorageOk) : s.dropOldest.StorageOk := by
  refine { h with
    headLt := Nat.mod_lt _ (Nat.zero_lt_of_lt h.headLt)
    countLe := (Nat.sub_le _ _).trans h.countLe
    newestIs := fun k hk => ?newest
    idsSet := fun k hk => ?set
    paramsLe := fun k hk => ?params
    idsConsecutive := fun k hk => ?consecutive } <;>
    rw [State.dropOldest_count] at hk <;> simp only [queued_dropOldest]
  case newest => exact h.newestIs (k + 1) (by omega)
  case set => exact h.idsSet (k + 1) (by omega)
  case params => exact h.paramsLe (k + 1) (by omega)
  case consecutive => exact h.idsConsecutive (k + 1) (by omega)

/-- Appending to a buffer with room keeps the storage part: the old commands stay, and the new one is last
and carries the successor of the newest id (R152, R153). -/
theorem storageOk_append {s : State} (h : s.StorageOk) (hroom : s.count < s.cfg.cmdCapacity)
    {m : Command} (hm : m.params.length ≤ s.cfg.maxParams) : (s.append m).StorageOk := by
  have hold : ∀ k, k < s.count → (s.append m).queued k = s.queued k :=
    fun k hk => queued_append_of_lt m hk hroom
  have hlast := queued_append_count h.ringWf m
  refine { h with
    countLe := hroom
    ringWf := Memory.wf_write h.ringWf _ _
    ringBelow := Memory.below_write h.ringBelow (Nat.mod_lt _ (Nat.zero_lt_of_lt h.headLt)) _
    newestIs := fun k hk => ?newest
    idsSet := fun k hk => ?set
    paramsLe := fun k hk => ?params
    idsConsecutive := fun k hk => ?consecutive } <;> rw [State.append_count] at hk
  case newest =>
    obtain rfl : k = s.count := by omega
    rw [hlast]
    rfl
  case set =>
    obtain hlt | rfl := Nat.lt_succ_iff_lt_or_eq.mp hk
    · exact hold k hlt ▸ h.idsSet k hlt
    · exact hlast ▸ succId_ne_zero s.newestId
  case params =>
    obtain hlt | rfl := Nat.lt_succ_iff_lt_or_eq.mp hk
    · exact hold k hlt ▸ h.paramsLe k hlt
    · exact hlast ▸ hm
  case consecutive =>
    obtain hlt | heq := Nat.lt_or_eq_of_le (Nat.le_of_lt_succ hk)
    · rw [hold k (by omega), hold (k + 1) hlt, h.idsConsecutive k hlt]
    · rw [heq, hlast, hold k (by omega), h.newestIs k heq]

/-- An enqueue keeps the storage part, the buffer full or not (R152). -/
theorem storageOk_enqueue {s : State} (h : s.StorageOk) {m : Command}
    (hm : m.params.length ≤ s.cfg.maxParams) : (s.enqueue m).StorageOk := by
  have hpos := Nat.zero_lt_of_lt h.headLt
  obtain ⟨hfull, heq⟩ | ⟨hroom, heq⟩ := enqueue_cases m s <;> rw [heq]
  · refine storageOk_append (storageOk_dropOldest h) ?_ hm
    simp only [State.dropOldest_count, State.dropOldest_cfg]
    omega
  · exact storageOk_append h (lt_of_le_of_ne h.countLe hroom) hm

/-! ### What the events keep -/

/-- A completed frame restores the whole invariant, whatever the assembler's registers held (R103). -/
theorem inv_finishFrame {s : State} {r : Payload} (h : s.StorageOk) (hr : r.Fits s.cfg) :
    (finishFrame r s).Inv := by
  obtain ⟨-, -, hstate, hindex, -⟩ := finishFrame_frame r s
  refine inv_iff.mpr ⟨?_, assemblerOk_of_settled hstate hindex⟩
  have hsettle : s.settle.StorageOk := h.congr rfl rfl rfl rfl rfl rfl
  cases r with
  | ok m =>
    have hen := storageOk_enqueue hsettle (hr m rfl)
    simp only [finishFrame, frameAccept]
    split <;> exact hen.congr rfl rfl rfl rfl rfl rfl
  | unrecognizedCommand => exact h.congr rfl rfl rfl rfl rfl rfl
  | invalidParams => exact h.congr rfl rfl rfl rfl rfl rfl

/-- A received byte keeps the invariant (R106). -/
theorem inv_rxByte {b : Byte} {s t : State} (hs : s.Inv) (h : rxByte b s = .next t) : t.Inv := by
  obtain ⟨hstore, hasm⟩ := inv_iff.mp hs
  obtain ⟨-, ⟨-, -, rfl⟩ | ⟨-, -, rfl⟩ | ⟨-, -, rfl⟩ | ⟨-, -, -, hend⟩ | ⟨hstate, -, -, hi, rfl⟩ |
    ⟨-, -, -, -, rfl⟩⟩ := rxByte_next h
  case inl | inr.inr.inl =>
    exact inv_iff.mpr ⟨hstore.congr rfl rfl rfl rfl rfl rfl, ⟨nofun, nofun, Nat.zero_le _⟩⟩
  case inr.inl => exact hs
  case inr.inr.inr.inl =>
    obtain ⟨-, -, hi, u, hu, rfl⟩ := execRxEnd_next.mp hend
    have hclosed : u.StorageOk :=
      hu ▸ (storageOk_setRxCell hstore hi 0x00).congr rfl rfl rfl rfl rfl rfl
    exact inv_finishFrame hclosed (decodePayload_fits hclosed.cfgOk _)
  case inr.inr.inr.inr.inl =>
    have hroom : s.rxIndex < s.cfg.maxPayload := hi
    refine inv_iff.mpr ⟨?_, ⟨hasm.notFrameReady, fun hw => absurd hw hstate, hroom⟩⟩
    exact (storageOk_setRxCell hstore (Nat.lt_succ_of_lt hroom) b).congr rfl rfl rfl rfl rfl rfl
  case inr.inr.inr.inr.inr =>
    exact inv_iff.mpr ⟨hstore.congr rfl rfl rfl rfl rfl rfl, assemblerOk_of_settled rfl rfl⟩

/-- So does a sequence of them. -/
theorem inv_rxBytes {bytes : Text} {n : Nat} {s t : State} (hs : s.Inv)
    (h : (rxBytes bytes n s).1 = .next t) : t.Inv :=
  rxBytes_induct (P := fun s t => s.Inv → t.Inv) (fun _ => id)
    (fun _ _ _ _ ht hu hs => inv_rxByte (ht hs) hu) h hs

/-- The invariant speaks of no output, no counter, no request and no byte of the source. -/
theorem inv_congr {s t : State} (h : s.Inv) (hcfg : t.cfg = s.cfg) (hstate : t.state = s.state)
    (hindex : t.rxIndex = s.rxIndex) (hbuf : t.rxBuf = s.rxBuf) (hring : t.ring = s.ring)
    (hhead : t.head = s.head) (hcount : t.count = s.count) (hid : t.newestId = s.newestId) : t.Inv := by
  obtain ⟨hstore, hasm⟩ := inv_iff.mp h
  exact inv_iff.mpr ⟨hstore.congr hcfg hbuf hring hhead hcount hid, hasm.congr hcfg hstate hindex⟩

/-- Every instruction keeps the invariant, an enqueued command holding at most `MAX_PARAMS` parameters. -/
theorem inv_exec {i : Instr} {s t : State} (hs : s.Inv)
    (hm : ∀ m, i = .cbEnqueue m → m.params.length ≤ s.cfg.maxParams) (h : exec i s = .next t) :
    t.Inv := by
  obtain ⟨hstore, hasm⟩ := inv_iff.mp hs
  cases exec_effect h with
  | reported => exact inv_congr hs rfl rfl rfl rfl rfl rfl rfl rfl
  | byteReceived hi hb => exact inv_rxByte hs hb
  | frameFinished hi hr => exact inv_finishFrame hstore hr
  | sessionInitialised =>
    exact inv_iff.mpr ⟨(storageOk_cbInit hstore).congr rfl rfl rfl rfl rfl rfl,
      assemblerOk_of_settled rfl rfl⟩
  | sourceDrained hu =>
    have htaken : State.Inv { s with source := [] } := inv_congr hs rfl rfl rfl rfl rfl rfl rfl rfl
    exact inv_congr (inv_rxBytes htaken hu) rfl rfl rfl rfl rfl rfl rfl rfl
  | bufferInitialised => exact inv_iff.mpr ⟨storageOk_cbInit hstore, hasm.congr rfl rfl rfl⟩
  | enqueued m =>
    have hen := storageOk_enqueue hstore (hm m rfl)
    refine inv_iff.mpr ⟨hen.congr rfl rfl rfl rfl rfl rfl, ?_⟩
    obtain ⟨-, heq⟩ | ⟨-, heq⟩ := enqueue_cases m s <;> rw [heq] <;> exact hasm.congr rfl rfl rfl
  | dequeued =>
    exact inv_iff.mpr ⟨(storageOk_dropOldest hstore).congr rfl rfl rfl rfl rfl rfl,
      hasm.congr rfl rfl rfl⟩

/-- Settles O57: by the invariant of the instruction that the step runs; outside a frame's command, which
the invariant excludes, it comes from a decoded request. -/
theorem stepKeepsInvariant : Obligations.StepKeepsInvariant := by
  intro s t hs h
  obtain ⟨hw, -⟩ | ⟨-, rfl⟩ | ⟨bytes, rest, -, rfl⟩ | ⟨r, rest, f, bytes, i, -, -, hd, hx⟩ := step_next h
  · exact absurd (frameWaiting_iff.mp hw).2 hs.notFrameReady
  · exact hs
  · exact inv_congr hs rfl rfl rfl rfl rfl rfl rfl rfl
  · have hs' : State.Inv { s with inbox := rest } := inv_congr hs rfl rfl rfl rfl rfl rfl rfl rfl
    exact inv_exec hs' (fun m hi => decode_cbEnqueue_params (hi ▸ hd)) hx

end Sys2Proof.Machine
end

section
/-!
SUPPORT. Letters and values: the masked match of a code pair (spec 30_encoding R81), and the order of binary64
patterns as the order of their exact values, on which the classifier rests (41 R134, R135).
-/

namespace Sys2Proof.Machine

/-! ### The masked match -/

/-- The byte is an upper-case ASCII letter (R71). -/
def isUpperLetter (b : Byte) : Bool := decide (0x41 ≤ b ∧ b ≤ 0x5A)

/-- The mask of R81 and the folding of R17 differ only off the letters: where either gives an upper-case
letter, both give the same. -/
theorem mask_eq_upper : ∀ b : Byte, isUpperLetter (b &&& 0xDF) = true ∨ isUpperLetter (upper b) = true →
    b &&& 0xDF = upper b := by
  decide

/-- A byte under the mask is an upper-case letter exactly if it folds to that letter. -/
theorem mask_eq_letter_iff {b l : Byte} (hl : isUpperLetter l = true) :
    b &&& 0xDF = l ↔ upper b = l := by
  constructor <;> intro h
  · rw [← mask_eq_upper b (.inl (h ▸ hl)), h]
  · rw [mask_eq_upper b (.inr (h ▸ hl)), h]

/-- Two pairs make the same decode word exactly if they are the same pair (R81). -/
theorem pairWord_inj {c1 c2 l1 l2 : Byte} : pairWord c1 c2 = pairWord l1 l2 ↔ c1 = l1 ∧ c2 = l2 := by
  refine ⟨fun h => ?_, fun ⟨h1, h2⟩ => h1 ▸ h2 ▸ rfl⟩
  constructor
  · calc c1 = BitVec.extractLsb' 8 8 (c1 ++ c2) := BitVec.extractLsb'_append_eq_left.symm
      _ = BitVec.extractLsb' 8 8 (l1 ++ l2) := congrArg _ h
      _ = l1 := BitVec.extractLsb'_append_eq_left
  · calc c2 = BitVec.setWidth 8 (c1 ++ c2) := BitVec.setWidth_append_eq_right.symm
      _ = BitVec.setWidth 8 (l1 ++ l2) := congrArg _ h
      _ = l2 := BitVec.setWidth_append_eq_right

/-- A pair under the mask is a pair of upper-case letters exactly if it folds to them. -/
theorem pairWord_mask_iff {c1 c2 l1 l2 : Byte} (h1 : isUpperLetter l1 = true)
    (h2 : isUpperLetter l2 = true) :
    pairWord c1 c2 &&& 0xDFDF = pairWord l1 l2 ↔ upper c1 = l1 ∧ upper c2 = l2 := by
  have hmask : pairWord c1 c2 &&& 0xDFDF = pairWord (c1 &&& 0xDF) (c2 &&& 0xDF) :=
    BitVec.and_append (x₂ := (0xDF : Byte)) (y₂ := (0xDF : Byte))
  rw [hmask, pairWord_inj, mask_eq_letter_iff h1, mask_eq_letter_iff h2]

/-- Settles O3: each test of the match is the exact test on the folded pair. -/
theorem maskIgnoresLetterCase : Obligations.MaskIgnoresLetterCase := by
  intro c1 c2
  simp only [← pairWord_mask_iff (l1 := 0x4D) (l2 := 0x56) rfl rfl,
    ← pairWord_mask_iff (l1 := 0x53) (l2 := 0x54) rfl rfl,
    ← pairWord_mask_iff (l1 := 0x47) (l2 := 0x54) rfl rfl,
    ← pairWord_mask_iff (l1 := 0x53) (l2 := 0x46) rfl rfl,
    ← pairWord_mask_iff (l1 := 0x53) (l2 := 0x42) rfl rfl,
    ← pairWord_mask_iff (l1 := 0x53) (l2 := 0x4C) rfl rfl,
    ← pairWord_mask_iff (l1 := 0x53) (l2 := 0x52) rfl rfl]
  rfl

/-! ### The order of the magnitudes -/

/-- The exact value of a magnitude field, read as a finite one (R12). -/
def magValue (mag : Nat) : ℚ := (significand mag : ℚ) * (2 : ℚ) ^ exponent2 mag

@[simp] theorem magValue_zero : magValue 0 = 0 := by
  simp [magValue, significand]

/-- A normal magnitude field, by its exponent and fraction. The formula holds on at the field behind the last
fraction, the first one of the next exponent. -/
theorem magValue_normal {e f : Nat} (he : 0 < e) (hf : f ≤ 2 ^ 52) :
    magValue (e * 2 ^ 52 + f) = (2 ^ 52 + f) * (2 : ℚ) ^ ((e : ℤ) - 1075) := by
  obtain hlt | rfl := Nat.lt_or_eq_of_le hf
  · have hdiv : (e * 2 ^ 52 + f) / 2 ^ 52 = e := by omega
    have hmod : (e * 2 ^ 52 + f) % 2 ^ 52 = f := by omega
    rw [magValue, significand, exponent2, hdiv, hmod, if_neg he.ne', if_neg he.ne']
    push_cast
    rfl
  · have hdiv : (e * 2 ^ 52 + 2 ^ 52) / 2 ^ 52 = e + 1 := by omega
    have hmod : (e * 2 ^ 52 + 2 ^ 52) % 2 ^ 52 = 0 := by omega
    have hexp : ((e + 1 : ℕ) : ℤ) - 1075 = ((e : ℤ) - 1075) + 1 := by push_cast; ring
    rw [magValue, significand, exponent2, hdiv, hmod, if_neg e.succ_ne_zero, if_neg e.succ_ne_zero, hexp,
      zpow_add_one₀ two_ne_zero]
    push_cast
    ring

/-- A subnormal magnitude field; the formula holds on at the smallest normal one. -/
theorem magValue_subnormal {mag : Nat} (h : mag ≤ 2 ^ 52) :
    magValue mag = mag * (2 : ℚ) ^ (-1074 : ℤ) := by
  obtain hlt | rfl := Nat.lt_or_eq_of_le h
  · rw [magValue, significand, exponent2, Nat.div_eq_of_lt hlt, Nat.mod_eq_of_lt hlt, if_pos rfl,
      if_pos rfl]
  · calc magValue (2 ^ 52) = (2 ^ 52 + (0 : ℕ)) * (2 : ℚ) ^ (((1 : ℕ) : ℤ) - 1075) :=
          magValue_normal one_pos (Nat.zero_le _)
      _ = (2 ^ 52 : ℕ) * (2 : ℚ) ^ (-1074 : ℤ) := by
          rw [Nat.cast_zero, add_zero, Nat.cast_pow]
          rfl

/-- The value grows with the magnitude field, by one unit in the last place of the lower one. -/
theorem magValue_lt_succ (mag : Nat) : magValue mag < magValue (mag + 1) := by
  obtain hlt | hge := Nat.lt_or_ge mag (2 ^ 52)
  · rw [magValue_subnormal hlt.le, magValue_subnormal hlt]
    exact mul_lt_mul_of_pos_right (Nat.cast_lt.mpr mag.lt_succ_self) (zpow_pos two_pos _)
  · obtain ⟨e, f, he, hf, rfl⟩ : ∃ e f, 0 < e ∧ f < 2 ^ 52 ∧ mag = e * 2 ^ 52 + f :=
      ⟨mag / 2 ^ 52, mag % 2 ^ 52, by omega, by omega, by omega⟩
    rw [add_assoc, magValue_normal he hf.le, magValue_normal he hf]
    refine mul_lt_mul_of_pos_right ?_ (zpow_pos two_pos _)
    exact add_lt_add_right (Nat.cast_lt.mpr f.lt_succ_self) _

theorem magValue_strictMono : StrictMono magValue := strictMono_nat_of_lt_succ magValue_lt_succ

/-! ### The order of the keys -/

/-- The exact value that a finite key stands for. -/
def keyValue (k : ℤ) : ℚ := k.sign * magValue k.natAbs

theorem keyValue_neg (k : ℤ) : keyValue (-k) = -keyValue k := by
  simp [keyValue]

theorem keyValue_natCast (n : ℕ) : keyValue n = magValue n := by
  obtain rfl | hn := Nat.eq_zero_or_pos n
  · simp [keyValue]
  · simp [keyValue, Int.sign_natCast_of_ne_zero hn.ne']

theorem keyValue_strictMono : StrictMono keyValue := by
  refine strictMono_of_odd_strictMonoOn_nonneg keyValue_neg fun a ha b hb hab => ?_
  lift a to ℕ using ha
  lift b to ℕ using hb
  rw [keyValue_natCast, keyValue_natCast]
  exact magValue_strictMono (Int.ofNat_lt.mp hab)

/-- The value that the key of a pattern stands for, an infinity beyond every number. -/
def keyExt (k : ℤ) : WithBot (WithTop ℚ) :=
  if k ≤ -infMag then ⊥ else if k < infMag then ((keyValue k : WithTop ℚ) : WithBot (WithTop ℚ)) else ⊤

/-- The key orders all values but the NaNs (R134). -/
theorem keyExt_strictMonoOn : StrictMonoOn keyExt (Set.Icc (-infMag) infMag) := by
  intro a ⟨ha, _⟩ b ⟨_, hb⟩ hab
  have hpos : (0 : ℤ) < infMag := by decide
  have hbot : ¬b ≤ -infMag := by omega
  have htop : a < infMag := by omega
  rw [keyExt, keyExt, if_neg hbot, if_pos htop]
  split_ifs
  · exact WithBot.bot_lt_coe _
  · exact WithBot.bot_lt_coe _
  · exact WithBot.coe_lt_coe.mpr (WithTop.coe_lt_coe.mpr (keyValue_strictMono hab))
  · exact WithBot.coe_lt_coe.mpr (WithTop.coe_lt_top _)

/-- The key is the magnitude with the sign. -/
theorem f64Key_cases (v : F64) :
    (f64Neg v = true ∧ f64Key v = -(f64Mag v : ℤ)) ∨ (f64Neg v = false ∧ f64Key v = f64Mag v) := by
  unfold f64Key
  cases f64Neg v <;> simp

/-- The value of a finite pattern is its key's. -/
theorem f64Value_eq_keyValue (v : F64) : f64Value v = keyValue (f64Key v) := by
  obtain ⟨hn, hk⟩ | ⟨hn, hk⟩ := f64Key_cases v
  · rw [hk, keyValue_neg, keyValue_natCast, f64Value, hn, if_pos rfl, neg_one_mul]
    rfl
  · rw [hk, keyValue_natCast, f64Value, hn, if_neg Bool.false_ne_true, one_mul]
    rfl

theorem f64Mag_le_infMag {v : F64} (h : f64IsNan v = false) : f64Mag v ≤ infMag := by
  simpa [f64IsNan] using h

/-- The key of a pattern that is no NaN lies between those of the infinities. -/
theorem f64Key_mem {v : F64} (h : f64IsNan v = false) : f64Key v ∈ Set.Icc (-(infMag : ℤ)) infMag := by
  have hle := f64Mag_le_infMag h
  have hkey := f64Key_cases v
  exact ⟨by omega, by omega⟩

/-- The extended value of a pattern that is no NaN is its key's. -/
theorem f64Ext_eq_keyExt {v : F64} (h : f64IsNan v = false) : f64Ext v = keyExt (f64Key v) := by
  have hle := f64Mag_le_infMag h
  have hpos : (0 : ℤ) < infMag := by decide
  have hkey := f64Key_cases v
  by_cases hfin : f64Mag v < infMag
  · have hbot : ¬f64Key v ≤ -infMag := by omega
    have htop : f64Key v < infMag := by omega
    rw [f64Ext, f64IsFinite, if_pos (decide_eq_true hfin), f64Value_eq_keyValue, keyExt, if_neg hbot,
      if_pos htop]
  · have hinf : ¬f64IsFinite v = true := by simpa [f64IsFinite] using hfin
    rw [f64Ext, if_neg hinf, keyExt]
    obtain ⟨hn, hk⟩ | ⟨hn, hk⟩ := hkey
    · rw [if_pos hn, if_pos (by omega)]
    · rw [if_neg (Bool.eq_false_iff.mp hn), if_neg (by omega), if_neg (by omega)]

/-- The comparisons of patterns that are no NaN compare their exact values (R135). -/
theorem f64Ext_lt_iff {a b : F64} (ha : f64IsNan a = false) (hb : f64IsNan b = false) :
    f64Lt a b = true ↔ f64Ext a < f64Ext b := by
  rw [f64Ext_eq_keyExt ha, f64Ext_eq_keyExt hb,
    keyExt_strictMonoOn.lt_iff_lt (f64Key_mem ha) (f64Key_mem hb)]
  simp [f64Lt, ha, hb]

theorem f64Ext_eq_iff {a b : F64} (ha : f64IsNan a = false) (hb : f64IsNan b = false) :
    f64Eq a b = true ↔ f64Ext a = f64Ext b := by
  rw [f64Ext_eq_keyExt ha, f64Ext_eq_keyExt hb,
    keyExt_strictMonoOn.eq_iff_eq (f64Key_mem ha) (f64Key_mem hb)]
  simp [f64Eq, ha, hb]

theorem f64IsNan_zero : f64IsNan f64Zero = false := by decide

theorem f64Ext_zero : f64Ext f64Zero = 0 := by
  rw [f64Ext_eq_keyExt f64IsNan_zero]
  simp [keyExt, keyValue, f64Key, f64Neg, f64Mag, f64Zero, infMag]

/-- Settles O26: the tests of the classifier are the comparisons of the exact values. -/
theorem classifierOnValues : Obligations.ClassifierOnValues := by
  intro l r hl hr
  have hz := f64IsNan_zero
  simp only [classify, Bool.and_eq_true, f64Ext_lt_iff, f64Ext_eq_iff, f64Ext_zero, hl, hr, hz]

end Sys2Proof.Machine
end

section
/-!
SUPPORT. Two runs side by side: states that differ only in cells of RXBUF at and above `rx_index` and in unqueued
slots of RING stay alike under every operation (spec 10_state R24, R33, R231).
-/

namespace Sys2Proof.Machine

/-! ### Alike states -/

section

variable {s t : State}

/-- All fields but the two memories are the same data. -/
theorem State.Alike.eq_with (h : s.Alike t) : ∃ buf ring, t = { s with rxBuf := buf, ring := ring } :=
  ⟨_, _, h.1⟩

theorem State.Alike.cells (h : s.Alike t) : ∀ a, a < s.rxIndex → s.rxCell a = t.rxCell a := h.2.1

theorem State.Alike.queued (h : s.Alike t) : ∀ k, k < s.count → s.queued k = t.queued k := h.2.2

theorem State.Alike.cfg (h : s.Alike t) : t.cfg = s.cfg := by rw [h.1]

theorem State.Alike.initialised (h : s.Alike t) : t.initialised = s.initialised := by rw [h.1]

theorem State.Alike.state (h : s.Alike t) : t.state = s.state := by rw [h.1]

theorem State.Alike.rxIndex (h : s.Alike t) : t.rxIndex = s.rxIndex := by rw [h.1]

theorem State.Alike.head (h : s.Alike t) : t.head = s.head := by rw [h.1]

theorem State.Alike.count (h : s.Alike t) : t.count = s.count := by rw [h.1]

theorem State.Alike.newestId (h : s.Alike t) : t.newestId = s.newestId := by rw [h.1]

theorem State.Alike.source (h : s.Alike t) : t.source = s.source := by rw [h.1]

theorem State.Alike.inbox (h : s.Alike t) : t.inbox = s.inbox := by rw [h.1]

theorem State.Alike.isFull (h : s.Alike t) : t.isFull = s.isFull := by
  rw [State.isFull, State.isFull, h.count, h.cfg]

/-- An update that passes both memories through unread, leaves the queue where it is and does not raise
`rx_index`. -/
structure KeepsMemory (f : State → State) : Prop where
  through : ∀ s buf ring, f { s with rxBuf := buf, ring := ring } =
    { f s with rxBuf := buf, ring := ring } := by intros; rfl
  cfg : ∀ s, (f s).cfg = s.cfg := by intros; rfl
  head : ∀ s, (f s).head = s.head := by intros; rfl
  count : ∀ s, (f s).count = s.count := by intros; rfl
  index : ∀ s, (f s).rxIndex ≤ s.rxIndex := by intros; exact Nat.le_refl _

/-- Such an update leaves both memories as they were. -/
theorem KeepsMemory.eq_with {f : State → State} (hf : KeepsMemory f) (s : State) :
    f s = { f s with rxBuf := s.rxBuf, ring := s.ring } :=
  hf.through s s.rxBuf s.ring

theorem KeepsMemory.rxCell {f : State → State} (hf : KeepsMemory f) (s : State) (a : Nat) :
    (f s).rxCell a = s.rxCell a := by
  rw [hf.eq_with s]
  rfl

theorem KeepsMemory.queued {f : State → State} (hf : KeepsMemory f) (s : State) (k : Nat) :
    (f s).queued k = s.queued k := by
  rw [hf.eq_with s]
  simp only [State.queued, State.slot, hf.cfg, hf.head]

/-- Such an update keeps states alike. -/
theorem State.Alike.map {f : State → State} (h : s.Alike t) (hf : KeepsMemory f) : (f s).Alike (f t) := by
  refine ⟨?_, fun a ha => ?_, fun k hk => ?_⟩
  · obtain ⟨buf, ring, rfl⟩ := h.eq_with
    rw [hf.through]
  · rw [hf.rxCell, hf.rxCell, h.cells a (ha.trans_le (hf.index s))]
  · rw [hf.queued, hf.queued, h.queued k (hf.count s ▸ hk)]

theorem keepsMemory_answer (r : Result) : KeepsMemory (State.answer r) := {}

theorem keepsMemory_respond (k : Kind) : KeepsMemory (State.respond k) := {}

theorem keepsMemory_settle : KeepsMemory State.settle := { index := fun s => Nat.zero_le s.rxIndex }

theorem keepsMemory_openFrame : KeepsMemory State.openFrame := { index := fun s => Nat.zero_le s.rxIndex }

/-! ### The buffer operations -/

/-- An emptied buffer has no queued slot to read. -/
theorem State.Alike.cbInit (h : s.Alike t) : s.cbInit.Alike t.cbInit := by
  obtain ⟨buf, ring, rfl⟩ := h.eq_with
  exact ⟨rfl, h.cells, fun k hk => absurd hk (Nat.not_lt_zero k)⟩

theorem State.Alike.dropOldest (h : s.Alike t) : s.dropOldest.Alike t.dropOldest := by
  refine ⟨?_, ?_, fun k hk => ?_⟩
  · obtain ⟨buf, ring, rfl⟩ := h.eq_with
    rfl
  · exact h.cells
  · rw [State.dropOldest_count] at hk
    rw [queued_dropOldest, queued_dropOldest, h.queued (k + 1) (by omega)]

/-- An append queues the same command at the same place behind the same queue. -/
theorem State.Alike.append (h : s.Alike t) (hs : s.StorageOk) (ht : t.StorageOk)
    (hroom : s.count < s.cfg.cmdCapacity) (m : Command) : (s.append m).Alike (t.append m) := by
  have hroom' : t.count < t.cfg.cmdCapacity := by rwa [h.count, h.cfg]
  refine ⟨?_, h.cells, fun k hk => ?_⟩
  · obtain ⟨buf, ring, rfl⟩ := h.eq_with
    rfl
  obtain hlt | rfl := Nat.lt_succ_iff_lt_or_eq.mp hk
  · rw [queued_append_of_lt m hlt hroom, queued_append_of_lt m (h.count ▸ hlt) hroom', h.queued k hlt]
  · have hlast := queued_append_count ht.ringWf m
    rw [h.count, h.newestId] at hlast
    rw [queued_append_count hs.ringWf, hlast]

theorem State.Alike.enqueue (h : s.Alike t) (hs : s.StorageOk) (ht : t.StorageOk) (m : Command) :
    (s.enqueue m).Alike (t.enqueue m) := by
  have hpos := Nat.zero_lt_of_lt hs.headLt
  obtain ⟨hfull, heq⟩ | ⟨hroom, heq⟩ := enqueue_cases m s <;>
    obtain ⟨hfull', heq'⟩ | ⟨hroom', heq'⟩ := enqueue_cases m t
  · rw [heq, heq']
    refine h.dropOldest.append (storageOk_dropOldest hs) (storageOk_dropOldest ht) ?_ m
    rw [State.dropOldest_count, State.dropOldest_cfg]
    omega
  · exact absurd (by rw [h.count, h.cfg, hfull]) hroom'
  · exact absurd (by rw [← h.count, ← h.cfg, hfull']) hroom
  · rw [heq, heq']
    exact h.append hs ht (lt_of_le_of_ne hs.countLe hroom) m

/-- The oldest command is the same in both buffers. -/
theorem State.Alike.oldest (h : s.Alike t) (hs : s.StorageOk) (hc : s.count ≠ 0) :
    s.slot s.head = t.slot t.head := by
  have hfirst := h.queued 0 (Nat.pos_of_ne_zero hc)
  obtain ⟨buf, ring, rfl⟩ := h.eq_with
  simpa only [State.queued, Nat.add_zero, Nat.mod_eq_of_lt hs.headLt] using hfirst

/-! ### The receive buffer -/

/-- A stored byte is the same in both buffers. -/
theorem State.Alike.setRxCell_rxCell (h : s.Alike t) (hs : s.StorageOk) (ht : t.StorageOk) (b : Byte)
    (a : Nat) (ha : a ≤ s.rxIndex) :
    (s.setRxCell s.rxIndex b).rxCell a = (t.setRxCell t.rxIndex b).rxCell a := by
  rw [h.rxIndex]
  obtain hlt | rfl := Nat.lt_or_eq_of_le ha
  · calc (s.setRxCell s.rxIndex b).rxCell a = s.rxCell a := Memory.read_write_ne hlt.ne _ _
      _ = t.rxCell a := h.cells a hlt
      _ = (t.setRxCell s.rxIndex b).rxCell a := (Memory.read_write_ne hlt.ne _ _).symm
  · calc (s.setRxCell s.rxIndex b).rxCell s.rxIndex = b := Memory.read_write_self hs.rxBufWf _ _
      _ = (t.setRxCell s.rxIndex b).rxCell s.rxIndex := (Memory.read_write_self ht.rxBufWf _ _).symm

/-- A C string ends at its first NUL, so cells behind one do not matter (R17). -/
theorem cstr_congr {m m' : List Host.Cell} {n a e : Nat} (hae : a ≤ e)
    (hnul : Memory.read 0x00 m e = 0x00)
    (h : ∀ i, i ≤ e → Memory.read 0x00 m i = Memory.read 0x00 m' i) : cstr m n a = cstr m' n a := by
  induction n generalizing a with
  | zero => rfl
  | succ n ih =>
    simp only [cstr, ← h a hae]
    split
    · rfl
    · rename_i hne
      have hlt : a ≠ e := fun heq => hne (heq ▸ hnul)
      rw [ih (by omega)]

end

/-! ### Alike outcomes -/

/-- Two outcomes with alike next states, or refused for the same reason. -/
inductive OutAlike : Out → Out → Prop
  | next {s t : State} (h : s.Alike t) : OutAlike (.next s) (.next t)
  | refused (r : Refusal) : OutAlike (.refused r) (.refused r)

/-- The two cases in the words of the outcomes. -/
theorem OutAlike.cases {o o' : Out} (h : OutAlike o o') :
    (∃ s t, o = .next s ∧ o' = .next t ∧ s.Alike t) ∨ ∃ r, o = .refused r ∧ o' = .refused r := by
  cases h with
  | next h => exact .inl ⟨_, _, rfl, rfl, h⟩
  | refused r => exact .inr ⟨r, rfl, rfl⟩

section

variable {s t : State} {o o' : Out}

theorem outAlike_configured (h : s.Alike t) (ho : OutAlike o o') :
    OutAlike (configured s o) (configured t o') := by
  unfold configured
  rw [h.cfg]
  split
  · exact ho
  · exact .refused _

theorem outAlike_whenReady (h : s.Alike t) (ho : OutAlike o o') :
    OutAlike (whenReady s o) (whenReady t o') := by
  refine outAlike_configured h ?_
  rw [h.initialised]
  split
  · exact ho
  · exact .refused _

theorem outAlike_selected (h : s.Alike t) (i : Instr) (b : Byte) (ho : OutAlike o o') :
    OutAlike (selected s i b o) (selected t i b o') := by
  have hword : t.rxWord b = s.rxWord b := by
    obtain ⟨buf, ring, rfl⟩ := h.eq_with
    rfl
  unfold selected
  rw [hword]
  split
  · exact ho
  · exact .refused _

theorem outAlike_andThen {k k' : State → Out} (ho : OutAlike o o')
    (hk : ∀ u v, o = .next u → o' = .next v → u.Alike v → OutAlike (k u) (k' v)) :
    OutAlike (andThen o k) (andThen o' k') := by
  cases ho with
  | next h => exact hk _ _ rfl rfl h
  | refused r => exact .refused r

/-- A ready event that only updates what is no memory. -/
theorem outAlike_of_keepsMemory {f : State → State} (h : s.Alike t) (hf : KeepsMemory f) :
    OutAlike (whenReady s (.next (f s))) (whenReady t (.next (f t))) :=
  outAlike_whenReady h (.next (h.map hf))

/-! ### The operations -/

theorem outAlike_dequeue (h : s.Alike t) (hs : s.StorageOk) : OutAlike (dequeue s) (dequeue t) := by
  have hold := h.oldest hs
  have hhead : t.head < t.cfg.cmdCapacity := by
    rw [h.head, h.cfg]
    exact hs.headLt
  unfold dequeue
  rw [h.count, if_pos hs.headLt, if_pos hhead]
  by_cases hc : s.count = 0
  · rw [if_pos hc, if_pos hc]
    exact .next (h.map (keepsMemory_answer _))
  · rw [if_neg hc, if_neg hc, hold hc]
    exact .next (h.dropOldest.map (keepsMemory_answer _))

theorem outAlike_answerText (h : s.Alike t) (e : Encoded) :
    OutAlike (answerText e s) (answerText e t) := by
  cases e with
  | text x => exact .next (h.map (keepsMemory_answer _))
  | noOutput => exact .next (h.map (keepsMemory_answer _))
  | nonFinite => exact .refused _

theorem outAlike_sendSample (h : s.Alike t) (m : Sample) :
    OutAlike (sendSample m s) (sendSample m t) := by
  unfold sendSample
  rw [h.cfg]
  split
  · exact .next (h.map (f := State.transmit _) {})
  · exact .next h
  · exact .refused _

theorem outAlike_sendTelemetry (h : s.Alike t) (m : Sample) :
    OutAlike (sendTelemetry m s) (sendTelemetry m t) := by
  have hfits : sampleFits m t = sampleFits m s := by
    unfold sampleFits
    rw [h.cfg]
  unfold sendTelemetry
  rw [hfits]
  exact outAlike_andThen (outAlike_sendSample h m) fun u v _ _ huv =>
    .next (huv.map (keepsMemory_answer _))

/-! ### A completed frame -/

theorem State.Alike.finishFrame (h : s.Alike t) (hs : s.StorageOk) (ht : t.StorageOk) (r : Payload) :
    (finishFrame r s).Alike (finishFrame r t) := by
  cases r with
  | ok m =>
    have hs' : s.settle.StorageOk := hs.congr rfl rfl rfl rfl rfl rfl
    have ht' : t.settle.StorageOk := ht.congr rfl rfl rfl rfl rfl rfl
    have hen := (h.map keepsMemory_settle).enqueue hs' ht' m
    simp only [Machine.finishFrame, frameAccept, (h.map keepsMemory_settle).isFull]
    split
    · exact hen.map (keepsMemory_respond _)
    · exact hen.map (keepsMemory_respond _)
  | unrecognizedCommand =>
    exact h.map (f := fun s => raise .unrecognizedCommand s.settle)
      { index := fun s => Nat.zero_le s.rxIndex }
  | invalidParams =>
    exact h.map (f := fun s => raise .invalidParams s.settle) { index := fun s => Nat.zero_le s.rxIndex }

theorem outAlike_frame (h : s.Alike t) (hs : s.StorageOk) (ht : t.StorageOk) (r : Payload) :
    OutAlike (whenReady s (.next (finishFrame r s))) (whenReady t (.next (finishFrame r t))) :=
  outAlike_whenReady h (.next (h.finishFrame hs ht r))

theorem storageOk_closeFrame {u : State} (hs : s.StorageOk) (hu : closeFrame s = .next u) : u.StorageOk := by
  obtain ⟨hi, rfl⟩ := closeFrame_next.mp hu
  exact (storageOk_setRxCell hs hi 0x00).congr rfl rfl rfl rfl rfl rfl

/-- Closed frames hold the same payload, for the NUL stands at the same place behind the same bytes. -/
theorem payloadString_closeFrame {u v : State} (h : s.Alike t) (hs : s.StorageOk) (ht : t.StorageOk)
    (hu : closeFrame s = .next u) (hv : closeFrame t = .next v) : u.payloadString = v.payloadString := by
  obtain ⟨-, rfl⟩ := closeFrame_next.mp hu
  obtain ⟨-, rfl⟩ := closeFrame_next.mp hv
  have hstored := h.setRxCell_rxCell hs ht 0x00
  have hsize : t.cfg.rxBufSize = s.cfg.rxBufSize := by rw [h.cfg]
  simp only [State.payloadString, State.countReceived, State.setRxCell_cfg, hsize]
  exact cstr_congr (Nat.zero_le s.rxIndex) (Memory.read_write_self hs.rxBufWf _ _) hstored

theorem outAlike_closeFrame (h : s.Alike t) (hs : s.StorageOk) (ht : t.StorageOk)
    (hi : s.rxIndex < s.cfg.rxBufSize) : OutAlike (closeFrame s) (closeFrame t) := by
  have hi' : t.rxIndex < t.cfg.rxBufSize := by rwa [h.rxIndex, h.cfg]
  have hcells := h.setRxCell_rxCell hs ht 0x00
  have hqueued := h.queued
  unfold closeFrame
  rw [if_pos hi, if_pos hi']
  obtain ⟨buf, ring, rfl⟩ := h.eq_with
  exact .next ⟨rfl, fun a ha => hcells a ha.le, hqueued⟩

/-! ### Received bytes -/

/-- The rows of a received byte, in states that meet the invariant. -/
theorem outAlike_rxRow (h : s.Alike t) (hs : s.Inv) (ht : t.Inv) {i : Instr} {b : Byte}
    (hi : i ∈ rxRows b) : OutAlike (exec i s) (exec i t) := by
  obtain ⟨hstore, hasm⟩ := inv_iff.mp hs
  obtain ⟨hstore', -⟩ := inv_iff.mp ht
  simp only [rxRows, List.mem_cons, List.not_mem_nil, or_false] at hi
  obtain rfl | rfl | rfl | rfl | rfl | rfl := hi <;>
    refine outAlike_whenReady h (outAlike_selected h _ b ?_)
  case inl | inr.inr.inl => exact .next (h.map keepsMemory_openFrame)
  case inr.inl => exact .next h
  case inr.inr.inr.inl =>
    refine outAlike_andThen (outAlike_closeFrame h hstore hstore' (Nat.lt_succ_of_le hasm.indexLe)) ?_
    intro u v hu hv huv
    rw [payloadString_closeFrame h hstore hstore' hu hv, runPayload_eq, runPayload_eq, huv.cfg]
    exact outAlike_frame huv (storageOk_closeFrame hstore hu) (storageOk_closeFrame hstore' hv) _
  case inr.inr.inr.inr.inl =>
    have hcells := h.setRxCell_rxCell hstore hstore' b
    have hqueued := h.queued
    obtain ⟨buf, ring, rfl⟩ := h.eq_with
    exact .next ⟨rfl, fun a ha => hcells a (Nat.le_of_lt_succ ha), hqueued⟩
  case inr.inr.inr.inr.inr =>
    exact .next (h.map (f := raise .rxOverflow) { index := fun s => Nat.zero_le s.rxIndex })

theorem outAlike_rxByte (h : s.Alike t) (hs : s.Inv) (ht : t.Inv) (b : Byte) :
    OutAlike (rxByte b s) (rxByte b t) := by
  have hrow : t.rxRow b = s.rxRow b := by
    rw [State.rxRow, State.rxRow, h.cfg, h.state, h.rxIndex]
  rw [← exec_rxRow, ← exec_rxRow, hrow]
  exact outAlike_rxRow h hs ht (rxRow_mem s b)

/-- A sequence of bytes is answered alike and queues as many commands. -/
theorem outAlike_rxBytes (h : s.Alike t) (hs : s.Inv) (ht : t.Inv) (bytes : Text) (n : Nat) :
    OutAlike (rxBytes bytes n s).1 (rxBytes bytes n t).1 ∧
      (rxBytes bytes n s).2 = (rxBytes bytes n t).2 := by
  induction bytes generalizing n s t with
  | nil => exact ⟨.next h, rfl⟩
  | cons b bytes ih =>
    have hb := outAlike_rxByte h hs ht b
    simp only [rxBytes]
    generalize hu : rxByte b s = o at hb
    generalize hv : rxByte b t = o' at hb
    cases hb with
    | next huv =>
      simp only [huv.newestId, h.newestId]
      exact ih huv (inv_rxByte hs hu) (inv_rxByte ht hv) _
    | refused r => exact ⟨.refused r, rfl⟩

theorem outAlike_processAvailableInput (h : s.Alike t) (hs : s.Inv) (ht : t.Inv) :
    OutAlike (execProcessAvailableInput s) (execProcessAvailableInput t) := by
  refine outAlike_whenReady h ?_
  have hsource : t.source = s.source := by rw [h.1]
  have htaken := h.map (f := fun s => { s with source := [] }) {}
  obtain ⟨hout, hcount⟩ := outAlike_rxBytes htaken (inv_congr hs rfl rfl rfl rfl rfl rfl rfl rfl)
    (inv_congr ht rfl rfl rfl rfl rfl rfl rfl rfl) s.source 0
  rw [h.source]
  simp only [hcount]
  exact outAlike_andThen hout fun u v _ _ huv => .next (huv.map (keepsMemory_answer _))

/-! ### Every instruction and every step -/

theorem outAlike_exec (h : s.Alike t) (hs : s.Inv) (ht : t.Inv) (i : Instr) :
    OutAlike (exec i s) (exec i t) := by
  obtain ⟨hstore, -⟩ := inv_iff.mp hs
  obtain ⟨hstore', -⟩ := inv_iff.mp ht
  have hcfg := h.cfg
  cases i with
  | wsStart b | wsDrop b | rxRestart b | rxEnd b | rxData b | rxOverflow b =>
    exact outAlike_rxRow (b := b) h hs ht (by simp [rxRows])
  | mv | st | gt | sf | sb | sl | sr | unknownCode =>
    simp only [exec, execMv, execSt, execGt, execSf, execSb, execSl, execSr, execUnknownCode, hcfg]
    exact outAlike_frame h hstore hstore' _
  | respOk | respNack | respErrInvalidCommand | respErrInvalidParams | respErrBufferFull
  | sendResponse => exact outAlike_of_keepsMemory h (keepsMemory_respond _)
  | tel m | sendTelemetry m => exact outAlike_whenReady h (outAlike_sendTelemetry h m)
  | initSession =>
    have hinit := ((h.map keepsMemory_settle).cbInit).map
      (f := fun s => { s.clearCounters with initialised := true }) {}
    exact outAlike_configured h (.next hinit)
  | processAvailableInput => exact outAlike_processAvailableInput h hs ht
  | hasPendingCommand =>
    exact outAlike_of_keepsMemory h (f := fun s => s.answer (.flag s.hasPending)) {}
  | cbIsEmpty => exact outAlike_of_keepsMemory h (f := fun s => s.answer (.flag s.isEmpty)) {}
  | cbIsFull => exact outAlike_of_keepsMemory h (f := fun s => s.answer (.flag s.isFull)) {}
  | cbCount => exact outAlike_of_keepsMemory h (f := fun s => s.answer (.number s.count)) {}
  | getStatistics =>
    exact outAlike_of_keepsMemory h (f := fun s => s.answer
      (.statistics s.framesReceived s.framesSent s.parseErrors s.rxOverflows)) {}
  | resetStatistics => exact outAlike_of_keepsMemory h (f := State.clearCounters) {}
  | getNextCommand | cbDequeue => exact outAlike_whenReady h (outAlike_dequeue h hstore)
  | cbInit => exact outAlike_whenReady h (.next h.cbInit)
  | cbEnqueue m =>
    refine outAlike_whenReady h (.next ?_)
    rw [h.isFull]
    exact (h.enqueue hstore hstore' m).map (keepsMemory_answer _)
  | encodeCommand | encodeTelemetry =>
    simp only [exec, execEncodeCommand, execEncodeTelemetry, hcfg]
    exact outAlike_whenReady h (outAlike_answerText h _)
  | encodeResponse k =>
    exact outAlike_of_keepsMemory h (f := fun s => s.answer (.text (some (responseFrame s.cfg k)))) {}
  | parseResponse text =>
    exact outAlike_of_keepsMemory h (f := fun s => s.answer (.parsed (parseResponseText s.cfg text))) {}

/-- Between events no frame's command waits (R23). -/
theorem frameWaiting_of_inv (hs : s.Inv) : s.frameWaiting = false :=
  frameWaiting_eq_false.mpr (.inr hs.notFrameReady)

/-- The fetch reads neither memory for a request, and the instruction it runs is answered alike. -/
theorem outAlike_step (h : s.Alike t) (hs : s.Inv) (ht : t.Inv) : OutAlike (step s) (step t) := by
  have hw := frameWaiting_of_inv hs
  have hw' := frameWaiting_of_inv ht
  match hi : s.inbox with
  | [] =>
    rw [step_of_inbox_nil hw hi, step_of_inbox_nil hw' (h.inbox.trans hi)]
    exact .next h
  | r :: rest =>
    have hi' : t.inbox = r :: rest := h.inbox.trans hi
    match hr : r.word s with
    | none =>
      obtain ⟨bytes, rfl⟩ := word_eq_none.mp hr
      rw [step_of_arrive hw hi, step_of_arrive hw' hi']
      exact .next (h.map (f := fun s => { s with inbox := rest, source := s.source ++ bytes }) {})
    | some (f, bytes) =>
      have hr' : r.word t = some (f, bytes) := by
        obtain ⟨buf, ring, rfl⟩ := h.eq_with
        exact hr
      match hd : decode s.cfg f bytes with
      | .instr i =>
        rw [step_of_decode hw hi hr hd, step_of_decode hw' hi' hr' (h.cfg ▸ hd)]
        exact outAlike_exec (h.map (f := fun s => { s with inbox := rest }) {})
          (inv_congr hs rfl rfl rfl rfl rfl rfl rfl rfl) (inv_congr ht rfl rfl rfl rfl rfl rfl rfl rfl) i
      | .reject e =>
        rw [step_of_reject hw hi hr hd, step_of_reject hw' hi' hr' (h.cfg ▸ hd)]
        exact .refused _

end

/-- Settles O59: alike states run side by side, and alike outcomes are those of the statement. -/
theorem staleContentsAreUnobservable : Obligations.StaleContentsAreUnobservable :=
  fun _ _ hs ht h => (outAlike_step h hs ht).cases

end Sys2Proof.Machine
end

section
/-!
SUPPORT. The Command Buffer as a queue (spec 42 R151, R152, R154), the shape of a decoded command (41 R120 to R140),
what the consumer leaves alone (R115) and the named faults (20 R53).
-/

namespace Sys2Proof.Machine

/-! ### The queue (R31, R152, R154) -/

/-- An append puts the stamped command behind the queue of a buffer with room. -/
theorem queue_append {s : State} (hwf : Memory.wf blankCommand s.ring = true)
    (hroom : s.count < s.cfg.cmdCapacity) (m : Command) :
    (s.append m).queue = s.queue ++ [{ m with id := succId s.newestId }] := by
  have hold : ∀ k ∈ List.range s.count, (s.append m).queued k = s.queued k :=
    fun k hk => queued_append_of_lt m (List.mem_range.mp hk) hroom
  rw [State.queue, State.append_count, List.range_succ, List.map_append, List.map_singleton,
    List.map_congr_left hold, queued_append_count hwf, State.queue]

/-- A queue that is not empty is its oldest command and the queue that dropping it leaves. -/
theorem queue_eq_cons {s : State} (hc : s.count ≠ 0) : s.queue = s.queued 0 :: s.dropOldest.queue := by
  obtain ⟨n, hn⟩ := Nat.exists_eq_succ_of_ne_zero hc
  have hdrop : s.dropOldest.queued = s.queued ∘ Nat.succ := funext (queued_dropOldest s)
  rw [State.queue, State.queue, State.dropOldest_count, hn, List.range_succ_eq_map, List.map_cons,
    List.map_map, hdrop]
  rfl

/-- The oldest command stands at the head. -/
theorem queued_zero {s : State} (hh : s.head < s.cfg.cmdCapacity) : s.queued 0 = s.slot s.head := by
  rw [State.queued, Nat.add_zero, Nat.mod_eq_of_lt hh]

/-- Settles O38: a full buffer drops its oldest entry, and an append goes behind the queue that is left. -/
theorem bufferIsBoundedFifo : Obligations.BufferIsBoundedFifo := by
  intro s m _ hh hle hwf
  refine ⟨?_, fun hc => queued_zero hh ▸ queue_eq_cons hc⟩
  obtain ⟨hfull, heq⟩ | ⟨hroom, heq⟩ := enqueue_cases m s <;> rw [heq]
  · have hc : s.count ≠ 0 := by omega
    have hroom : s.dropOldest.count < s.dropOldest.cfg.cmdCapacity := by
      rw [State.dropOldest_count, State.dropOldest_cfg]
      omega
    have hwf' : Memory.wf blankCommand s.dropOldest.ring = true := hwf
    rw [if_pos hfull, queue_append hwf' hroom, queue_eq_cons hc, List.tail_cons,
      State.dropOldest_newestId]
  · rw [if_neg hroom, queue_append hwf (lt_of_le_of_ne hle hroom)]

/-! ### The shape of a decoded command (R120 to R140) -/

/-- MV keeps the two or more numbers of its scan and classifies the first two (R128). -/
theorem decodeMove_eq_ok {c : Config} {tail : Text} {m : Command} (h : decodeMove c tail = .ok m) :
    ∃ l r more, m = ⟨0, .mv, classify l r, l :: r :: more⟩ := by
  unfold decodeMove at h
  split at h
  · cases h
  · split at h <;> cases h
    exact ⟨_, _, _, rfl⟩

/-- A one-parameter code keeps its number or `DEFAULT_SPEED` (R129 to R132). -/
theorem decodeSpeed_eq_ok {c : Config} {code : Code} {action : Action} {tail : Text} {m : Command}
    (h : decodeSpeed c code action tail = .ok m) : ∃ v, m = ⟨0, code, action, [v]⟩ := by
  unfold decodeSpeed at h
  split at h <;> cases h
  exact ⟨_, rfl⟩

/-- Settles O25: by the code of the payload. -/
theorem decodedCommandShape : Obligations.DecodedCommandShape := by
  intro c p m h
  unfold decodePayload at h
  split at h
  case h_1 tail _ =>
    have hle := decodeMove_fits c tail m h
    obtain ⟨l, r, more, rfl⟩ := decodeMove_eq_ok h
    exact ⟨rfl, Nat.le_add_left 2 more.length, hle, rfl⟩
  case h_2 | h_3 =>
    cases h
    exact ⟨rfl, rfl, rfl⟩
  case h_8 => cases h
  all_goals
    obtain ⟨v, rfl⟩ := decodeSpeed_eq_ok h
    exact ⟨rfl, rfl, rfl⟩

/-! ### The consumer and the assembler (R115) -/

/-- No row of a received byte is an operation of the consumer. -/
theorem consumerOp_of_mem_rxRows {i : Instr} {b : Byte} (hi : i ∈ rxRows b) : consumerOp i = false := by
  simp only [rxRows, List.mem_cons, List.not_mem_nil, or_false] at hi
  obtain rfl | rfl | rfl | rfl | rfl | rfl := hi <;> rfl

/-- No row of a completed frame is one. -/
theorem consumerOp_of_commandRow {i : Instr} (hi : commandRow i = true) : consumerOp i = false := by
  cases i with
  | mv | st | gt | sf | sb | sl | sr | unknownCode => rfl
  | _ => cases hi

/-- Settles O46: the effects of the consumer's operations touch outputs, counters and the Command Buffer. -/
theorem consumerLeavesAssemblerAlone : Obligations.ConsumerLeavesAssemblerAlone := by
  intro s t i hi h
  cases exec_effect h with
  | byteReceived hrow => simp [consumerOp_of_mem_rxRows hrow] at hi
  | frameFinished hrow => simp [consumerOp_of_commandRow hrow] at hi
  | sessionInitialised | sourceDrained => cases hi
  | enqueued m => obtain ⟨-, heq⟩ | ⟨-, heq⟩ := enqueue_cases m s <;> rw [heq] <;> exact ⟨rfl, rfl, rfl⟩
  | reported | bufferInitialised | dequeued => exact ⟨rfl, rfl, rfl⟩

/-! ### The faults (R53) -/

theorem closeFrame_of_index_outside {s : State} (h : s.cfg.rxBufSize ≤ s.rxIndex) :
    closeFrame s = .fault (.rxBufIndex s.rxIndex) :=
  if_neg (not_lt.mpr h)

theorem dequeue_of_head_outside {s : State} (hc : s.count ≠ 0) (h : s.cfg.cmdCapacity ≤ s.head) :
    dequeue s = .fault (.ringIndex s.head) := by
  rw [dequeue, if_neg hc, if_neg (not_lt.mpr h)]

/-- The markers differ (R7). -/
theorem startMarker_ne_endMarker {c : Config} (h : c.ok = true) : c.startMarker ≠ c.endMarker := by
  simp only [Config.ok, Bool.and_eq_true, decide_eq_true_eq] at h
  exact h.1.1.1.1

/-- Outside `WAITING_START` the end marker selects `RX_END` (R103, R106). -/
theorem rxRow_endMarker {s : State} (hc : s.cfg.ok = true) (hs : s.state ≠ .waitingStart) :
    s.rxRow s.cfg.endMarker = .rxEnd s.cfg.endMarker := by
  rw [State.rxRow, if_neg hs, if_neg (startMarker_ne_endMarker hc).symm, if_pos rfl]

/-- Settles O9: the selected `RX_END` faults in its first half, and a dequeue in its read. -/
theorem indexOutsideSpaceFaults : Obligations.IndexOutsideSpaceFaults := by
  intro s hr
  refine ⟨?_, fun hc hh => ⟨?_, ?_⟩⟩
  · rintro b hs rfl hi
    have hrow : decodeRx (s.rxWord s.cfg.endMarker) s.cfg.endMarker = .instr (.rxEnd s.cfg.endMarker) := by
      rw [decodeRx_rxWord, rxRow_endMarker (ready_iff.mp hr).1 hs]
    rw [exec, execRxEnd, whenReady_of_ready hr, selected, if_pos hrow, closeFrame_of_index_outside hi]
    rfl
  · rw [exec, execCbDequeue, whenReady_of_ready hr, dequeue_of_head_outside hc hh]
  · rw [exec, execGetNextCommand, whenReady_of_ready hr, dequeue_of_head_outside hc hh]

end Sys2Proof.Machine
end

section
/-!
SUPPORT. What the block tells the outside: the four counters and the outputs that each instruction adds, said once
for all rows (spec 10_state R38, R39, 40 R103, R108 to R110, 44 R190).
-/

namespace Sys2Proof.Machine

/-! ### The increment (R38, R39) -/

/-- A counter that wraps is a sum modulo 2^32 (R39). -/
theorem bump_of_wrap {c : Config} (hc : c.ctrOverflow = .wrap) (n : Word32) : bump c n = n + 1 := by
  simp [bump, hc]

/-- At its greatest value a counter that saturates stays (R39). -/
theorem bump_greatest_of_saturate {c : Config} (hc : c.ctrOverflow = .saturate) :
    bump c 0xFFFFFFFF = 0xFFFFFFFF := by
  simp [bump, hc]

theorem toNat_bump {c : Config} {n : Word32} (h : n.toNat < 2 ^ 32 - 1) :
    (bump c n).toNat = n.toNat + 1 := by
  rw [bump_of_ne (by rintro rfl; exact absurd h (by decide))]
  bv_omega

theorem bump_iterate_of_wrap {c : Config} (hc : c.ctrOverflow = .wrap) (k : Nat) (n : Word32) :
    (bump c)^[k] n = n + BitVec.ofNat 32 k := by
  induction k with
  | zero => simp
  | succ k ih =>
    rw [Function.iterate_succ_apply', ih, bump_of_wrap hc, BitVec.ofNat_add, BitVec.add_assoc]
    rfl

/-! ### Response frames -/

/-- Different kinds have different frames (R78). -/
@[simp] theorem responseFrame_inj {c : Config} {k k' : Kind} :
    responseFrame c k = responseFrame c k' ↔ k = k' := by
  refine ⟨fun h => ?_, fun h => h ▸ rfl⟩
  have htoken : token k = token k' := List.append_cancel_right (List.cons_inj_right _ |>.mp h)
  revert htoken
  cases k <;> cases k' <;> decide

/-- The kinds that answer a decode error (R109). -/
def isErrorKind (k : Kind) : Bool := decide (k = .errInvalidCommand ∨ k = .errInvalidParams)

/-- How many outputs answer a decode error. -/
def errorResponses (c : Config) (o : List Output) : Nat :=
  responsesOf c .errInvalidCommand o + responsesOf c .errInvalidParams o

theorem errorResponses_append (c : Config) (o o' : List Output) :
    errorResponses c (o ++ o') = errorResponses c o + errorResponses c o' := by
  simp only [errorResponses, responsesOf, List.filter_append, List.length_append]
  omega

theorem errorResponses_singleton (c : Config) (k : Kind) :
    errorResponses c [.tx (responseFrame c k)] = if isErrorKind k then 1 else 0 := by
  cases k <;> simp [errorResponses, responsesOf, isErrorKind]

/-! ### Reports -/

/-- What the block has told the outside: the four counters (R37) and the outputs (R16). -/
structure Report where
  received : Word32
  sent : Word32
  errors : Word32
  overflows : Word32
  output : List Output

def State.report (s : State) : Report :=
  ⟨s.framesReceived, s.framesSent, s.parseErrors, s.rxOverflows, s.output⟩

def Report.answer (r : Result) (p : Report) : Report := { p with output := p.output ++ [.ret r] }

def Report.transmit (c : Config) (text : Text) (p : Report) : Report :=
  { p with output := p.output ++ [.tx text], sent := bump c p.sent }

/-- A completed frame is answered with a response, and counted if the response is a decode error (R108, R109). -/
def Report.answerFrame (c : Config) (k : Kind) (p : Report) : Report :=
  { p.transmit c (responseFrame c k) with errors := if isErrorKind k then bump c p.errors else p.errors }

/-- A completed frame and an overflow are counted by their events alone (R103, R105). -/
def Report.countEvent (c : Config) (i : Instr) (p : Report) : Report :=
  match i with
  | .rxEnd _ => { p with received := bump c p.received }
  | .rxOverflow _ => { p with overflows := bump c p.overflows }
  | _ => p

/-- A completed frame is answered with one of the assembler's four responses (R108, R109). -/
theorem finishFrame_report (r : Payload) (s : State) :
    ∃ k ∈ assemblerKinds, (finishFrame r s).report = s.report.answerFrame s.cfg k := by
  obtain ⟨m, -, -, h⟩ | ⟨m, -, -, h⟩ | ⟨-, h⟩ | ⟨-, h⟩ := finishFrame_cases r s <;> rw [h]
  · exact ⟨.errBufferFull, by decide, rfl⟩
  · exact ⟨.ok, by decide, rfl⟩
  · exact ⟨.errInvalidCommand, by decide, rfl⟩
  · exact ⟨.errInvalidParams, by decide, rfl⟩

theorem enqueue_report (m : Command) (s : State) : (s.enqueue m).report = s.report := by
  obtain ⟨-, h⟩ | ⟨-, h⟩ := enqueue_cases m s <;> rw [h] <;> rfl

/-- What an instruction makes of the report. -/
inductive ReportEffect (c : Config) (p : Report) (i : Instr) : Report → Prop
  | silent (hi : frameRow i = false) : ReportEffect c p i (p.countEvent c i)
  | answered (r : Result) (hi : consumerOp i = true) : ReportEffect c p i (p.answer r)
  | responded (k : Kind) (hi : consumerOp i = true) : ReportEffect c p i (p.transmit c (responseFrame c k))
  | telemetrySent (text : Text) {m : Sample} (hi : i = .sendTelemetry m ∨ i = .tel m) :
      ReportEffect c p i ((p.transmit c text).answer (.flag true))
  | frameAnswered {k : Kind} (hk : k ∈ assemblerKinds) (hi : frameRow i = true) :
      ReportEffect c p i ((p.countEvent c i).answerFrame c k)

section

variable {s t : State} {i : Instr}

theorem reportEffect_of_commandRow {r : Payload} (hi : commandRow i = true)
    (h : whenReady s (.next (finishFrame r s)) = .next t) : ReportEffect s.cfg s.report i t.report := by
  obtain ⟨-, ⟨⟩⟩ := whenReady_next.mp h
  obtain ⟨k, hk, heq⟩ := finishFrame_report r s
  have hcount : s.report.countEvent s.cfg i = s.report := by
    cases i with
    | rxEnd | rxOverflow => cases hi
    | _ => rfl
  rw [← hcount] at heq
  rw [heq]
  exact .frameAnswered hk (by simp [frameRow, hi])

theorem reportEffect_of_rxEnd {b : Byte} (h : execRxEnd b s = .next t) :
    ReportEffect s.cfg s.report (.rxEnd b) t.report := by
  obtain ⟨-, -, -, u, hu, rfl⟩ := execRxEnd_next.mp h
  have hcfg : u.cfg = s.cfg := hu ▸ rfl
  have hcount : u.report = s.report.countEvent s.cfg (.rxEnd b) := hu ▸ rfl
  obtain ⟨k, hk, heq⟩ := finishFrame_report (decodePayload u.cfg u.payloadString) u
  rw [heq, hcfg, hcount]
  exact .frameAnswered hk rfl

theorem reportEffect_of_dequeue (hi : consumerOp i = true) (h : dequeue s = .next t) :
    ReportEffect s.cfg s.report i t.report := by
  obtain ⟨-, rfl⟩ | ⟨-, -, rfl⟩ := dequeue_next.mp h
  · exact .answered _ hi
  · exact .answered _ hi

theorem reportEffect_of_answerText {e : Encoded} (hi : consumerOp i = true)
    (h : answerText e s = .next t) : ReportEffect s.cfg s.report i t.report := by
  obtain ⟨x, -, rfl⟩ | ⟨-, rfl⟩ := answerText_next.mp h
  · exact .answered _ hi
  · exact .answered _ hi

theorem reportEffect_of_sendTelemetry {m : Sample} (hi : i = .sendTelemetry m ∨ i = .tel m)
    (h : sendTelemetry m s = .next t) : ReportEffect s.cfg s.report i t.report := by
  obtain ⟨x, -, rfl⟩ | ⟨-, rfl⟩ := sendTelemetry_next.mp h
  · exact .telemetrySent x hi
  · exact .answered _ (by obtain rfl | rfl := hi <;> rfl)

/-- Every instruction that answers a next state has one of these effects, but the drain of the byte source, which
has those of its bytes, and the two that clear the counters. -/
theorem exec_reportEffect (h : exec i s = .next t) (hp : i ≠ .processAvailableInput)
    (hs : i ≠ .initSession) (hr : i ≠ .resetStatistics) : ReportEffect s.cfg s.report i t.report := by
  cases i with
  | processAvailableInput => exact absurd rfl hp
  | initSession => exact absurd rfl hs
  | resetStatistics => exact absurd rfl hr
  | wsStart | wsDrop | rxRestart | rxData | rxOverflow =>
    obtain ⟨-, ⟨⟩⟩ := selected_next.mp (whenReady_next.mp h).2
    exact .silent rfl
  | rxEnd => exact reportEffect_of_rxEnd h
  | mv | st | gt | sf | sb | sl | sr | unknownCode => exact reportEffect_of_commandRow rfl h
  | respOk | respNack | respErrInvalidCommand | respErrInvalidParams | respErrBufferFull
  | sendResponse =>
    obtain ⟨-, ⟨⟩⟩ := whenReady_next.mp h
    exact .responded _ rfl
  | tel => exact reportEffect_of_sendTelemetry (.inr rfl) (whenReady_next.mp h).2
  | sendTelemetry => exact reportEffect_of_sendTelemetry (.inl rfl) (whenReady_next.mp h).2
  | getNextCommand | cbDequeue => exact reportEffect_of_dequeue rfl (whenReady_next.mp h).2
  | encodeCommand | encodeTelemetry => exact reportEffect_of_answerText rfl (whenReady_next.mp h).2
  | cbInit =>
    obtain ⟨-, ⟨⟩⟩ := whenReady_next.mp h
    exact .silent rfl
  | cbEnqueue m =>
    obtain ⟨-, ⟨⟩⟩ := whenReady_next.mp h
    rw [← enqueue_report m s]
    exact .answered _ rfl
  | hasPendingCommand | getStatistics | cbIsEmpty | cbIsFull | cbCount | encodeResponse
  | parseResponse =>
    obtain ⟨-, ⟨⟩⟩ := whenReady_next.mp h
    exact .answered _ rfl

end

/-! ### Which event counts -/

section

variable {c : Config} {p q : Report} {i : Instr}

theorem countEvent_of_consumerOp (hi : consumerOp i = true) : p.countEvent c i = p := by
  cases i with
  | rxEnd | rxOverflow => cases hi
  | _ => rfl

theorem consumerOp_of_telemetry {m : Sample} (hi : i = .sendTelemetry m ∨ i = .tel m) :
    consumerOp i = true := by
  obtain rfl | rfl := hi <;> rfl

/-- The consumer completes no frame. -/
theorem frameRow_of_consumerOp (hi : consumerOp i = true) : frameRow i = false := by
  cases i with
  | rxEnd | mv | st | gt | sf | sb | sl | sr | unknownCode => cases hi
  | _ => rfl

/-- The effect on the two counters of the receiver is the event's alone. -/
theorem ReportEffect.receiver (h : ReportEffect c p i q) :
    q.received = (p.countEvent c i).received ∧ q.overflows = (p.countEvent c i).overflows := by
  cases h with
  | silent | frameAnswered => exact ⟨rfl, rfl⟩
  | answered _ hi | responded _ hi =>
    rw [countEvent_of_consumerOp hi]
    exact ⟨rfl, rfl⟩
  | telemetrySent _ hi =>
    rw [countEvent_of_consumerOp (consumerOp_of_telemetry hi)]
    exact ⟨rfl, rfl⟩

theorem countEvent_received (c : Config) (p : Report) (i : Instr) :
    ((∃ b, i = .rxEnd b) ∧ (p.countEvent c i).received = bump c p.received) ∨
      ((∀ b, i ≠ .rxEnd b) ∧ (p.countEvent c i).received = p.received) := by
  cases i with
  | rxEnd b => exact .inl ⟨⟨b, rfl⟩, rfl⟩
  | _ => exact .inr ⟨nofun, rfl⟩

theorem countEvent_overflows (c : Config) (p : Report) (i : Instr) :
    ((∃ b, i = .rxOverflow b) ∧ (p.countEvent c i).overflows = bump c p.overflows) ∨
      ((∀ b, i ≠ .rxOverflow b) ∧ (p.countEvent c i).overflows = p.overflows) := by
  cases i with
  | rxOverflow b => exact .inl ⟨⟨b, rfl⟩, rfl⟩
  | _ => exact .inr ⟨nofun, rfl⟩

theorem countEvent_sender (c : Config) (p : Report) (i : Instr) :
    (p.countEvent c i).sent = p.sent ∧ (p.countEvent c i).errors = p.errors ∧
      (p.countEvent c i).output = p.output := by
  cases i <;> exact ⟨rfl, rfl, rfl⟩

/-- The effect on the outputs and on the two counters of the sender (R109, R190). -/
theorem ReportEffect.sender (h : ReportEffect c p i q) :
    ∃ new, q.output = p.output ++ new ∧
      ((new.filter Output.isTx = [] ∧ q.sent = p.sent) ∨
        ((new.filter Output.isTx).length = 1 ∧ q.sent = bump c p.sent)) ∧
      q.errors =
        (if frameRow i = true ∧
            (new = [.tx (responseFrame c .errInvalidCommand)] ∨
              new = [.tx (responseFrame c .errInvalidParams)])
          then bump c p.errors else p.errors) ∧
      ∀ text, .tx text ∈ new → (∃ k, text = responseFrame c k) ∨
        ∃ m, i = .sendTelemetry m ∨ i = .tel m := by
  obtain ⟨hsent, herrors, houtput⟩ := countEvent_sender c p i
  cases h with
  | silent hi => exact ⟨[], by simp [houtput], .inl ⟨rfl, hsent⟩, by simp [hi, herrors], nofun⟩
  | answered r hi =>
    refine ⟨[.ret r], rfl, .inl ⟨rfl, rfl⟩, ?_, by simp⟩
    simp [frameRow_of_consumerOp hi, Report.answer]
  | responded k hi =>
    refine ⟨[.tx (responseFrame c k)], rfl, .inr ⟨rfl, rfl⟩, ?_, by simp⟩
    simp [frameRow_of_consumerOp hi, Report.transmit]
  | telemetrySent text hi =>
    refine ⟨[.tx text, .ret (.flag true)], ?_, .inr ⟨rfl, rfl⟩, ?_, fun _ _ => .inr ⟨_, hi⟩⟩
    · simp [Report.answer, Report.transmit]
    · simp [frameRow_of_consumerOp (consumerOp_of_telemetry hi), Report.answer, Report.transmit]
  | @frameAnswered k hk hi =>
    refine ⟨[.tx (responseFrame c k)], ?_, .inr ⟨rfl, ?_⟩, ?_, by simp⟩
    · simp [Report.answerFrame, Report.transmit, houtput]
    · simp [Report.answerFrame, Report.transmit, hsent]
    · simp [Report.answerFrame, isErrorKind, hi, herrors]

/-- Settles O54: the increment by its cases, and the report of an instruction by its effect. -/
theorem countersCountTheirEvents : Obligations.CountersCountTheirEvents := by
  refine ⟨fun c n => ⟨toNat_bump, fun hn => ?_⟩, fun s t i h hp hs hr => ?_⟩
  · obtain rfl : n = 0xFFFFFFFF := BitVec.eq_of_toNat_eq hn
    exact ⟨fun hc => bump_of_wrap hc _, bump_greatest_of_saturate⟩
  · have heffect := exec_reportEffect h hp hs hr
    obtain ⟨hreceived, hoverflows⟩ : t.framesReceived = _ ∧ t.rxOverflows = _ := heffect.receiver
    rw [hreceived, hoverflows]
    exact ⟨countEvent_received _ s.report i, countEvent_overflows _ s.report i, heffect.sender⟩

end

/-! ### Responses of received bytes (R110) -/

/-- The outputs `new` answer as many completed frames, one response each. -/
structure Report.FramesAnswered (c : Config) (p q : Report) (new : List Output) : Prop where
  output : q.output = p.output ++ new
  responses : ∀ o ∈ new, ∃ k ∈ assemblerKinds, o = .tx (responseFrame c k)
  received : q.received = (bump c)^[new.length] p.received
  sent : q.sent = (bump c)^[new.length] p.sent
  errors : q.errors = (bump c)^[errorResponses c new] p.errors

theorem Report.framesAnswered_nil {c : Config} {p q : Report} (hreceived : q.received = p.received)
    (hsent : q.sent = p.sent) (herrors : q.errors = p.errors) (houtput : q.output = p.output) :
    p.FramesAnswered c q [] :=
  ⟨by rw [houtput, List.append_nil], nofun, hreceived, hsent, herrors⟩

theorem Report.FramesAnswered.append {c : Config} {p q r : Report} {new more : List Output}
    (h : p.FramesAnswered c q new) (h' : q.FramesAnswered c r more) :
    p.FramesAnswered c r (new ++ more) where
  output := by rw [h'.output, h.output, List.append_assoc]
  responses o ho := (List.mem_append.mp ho).elim (h.responses o) (h'.responses o)
  received := by
    rw [h'.received, h.received, ← Function.iterate_add_apply, List.length_append, Nat.add_comm]
  sent := by rw [h'.sent, h.sent, ← Function.iterate_add_apply, List.length_append, Nat.add_comm]
  errors := by
    rw [h'.errors, h.errors, ← Function.iterate_add_apply, errorResponses_append, Nat.add_comm]

/-- Of the rows of a received byte only `RX_END` completes a frame (R103). -/
theorem frameRow_rxRow {s : State} {b : Byte} :
    frameRow (s.rxRow b) = true ↔ ∃ b', s.rxRow b = .rxEnd b' := by
  unfold State.rxRow
  split_ifs <;> simp [frameRow, commandRow]

/-- A received byte answers one frame or none. -/
theorem rxByte_framesAnswered {b : Byte} {s t : State} (h : rxByte b s = .next t) :
    ∃ new, s.report.FramesAnswered s.cfg t.report new := by
  have hmem := rxRow_mem s b
  have hconsumer := consumerOp_of_mem_rxRows hmem
  have hframe := frameRow_rxRow (s := s) (b := b)
  rw [← exec_rxRow] at h
  have heffect := exec_reportEffect h (fun hi => by simp [hi, rxRows] at hmem)
    (rxRow_ne_initSession s b) (fun hi => by simp [hi, rxRows] at hmem)
  generalize s.rxRow b = i at hconsumer hframe heffect
  obtain ⟨hsent, herrors, houtput⟩ := countEvent_sender s.cfg s.report i
  have hreceived := countEvent_received s.cfg s.report i
  generalize t.report = q at heffect
  cases heffect with
  | answered _ hi | responded _ hi => simp [hi] at hconsumer
  | telemetrySent _ hi => simp [consumerOp_of_telemetry hi] at hconsumer
  | silent hi =>
    obtain ⟨hend, -⟩ | ⟨-, hreceived⟩ := hreceived
    · simp [hframe.mpr hend] at hi
    · exact ⟨[], Report.framesAnswered_nil hreceived hsent herrors houtput⟩
  | @frameAnswered k hk hi =>
    obtain ⟨-, hreceived⟩ | ⟨hne, -⟩ := hreceived
    · refine ⟨[.tx (responseFrame s.cfg k)], ?_, fun o ho => ⟨k, hk, List.mem_singleton.mp ho⟩, hreceived, ?_, ?_⟩
      · simp [Report.answerFrame, Report.transmit, houtput]
      · simp [Report.answerFrame, Report.transmit, hsent]
      · rw [errorResponses_singleton]
        cases hkind : isErrorKind k <;> simp [Report.answerFrame, hkind, herrors]
    · obtain ⟨b', hend⟩ := hframe.mp hi
      exact absurd hend (hne b')

/-- A sequence of received bytes answers some number of frames. -/
theorem rxBytes_framesAnswered {bytes : Text} {n : Nat} {s t : State}
    (h : (rxBytes bytes n s).1 = .next t) : ∃ new, s.report.FramesAnswered s.cfg t.report new := by
  refine (rxBytes_induct (P := fun s t =>
    t.cfg = s.cfg ∧ ∃ new, s.report.FramesAnswered s.cfg t.report new) ?_ ?_ h).2
  · exact fun s => ⟨rfl, [], Report.framesAnswered_nil rfl rfl rfl rfl⟩
  · rintro s t u b ⟨hcfg, new, hnew⟩ hu
    obtain ⟨more, hmore⟩ := rxByte_framesAnswered hu
    exact ⟨(sameSetup_of_rxByte hu).cfg.trans hcfg, new ++ more, hnew.append (hcfg ▸ hmore)⟩

/-- Settles O18: by the frames that the bytes answer. -/
theorem oneResponsePerCompletedFrame : Obligations.OneResponsePerCompletedFrame := by
  intro s t bytes _ h
  obtain ⟨new, hnew⟩ := rxBytes_framesAnswered h
  refine ⟨new, errorResponses s.cfg new, hnew.output, hnew.responses, rfl, hnew.received, hnew.sent,
    hnew.errors, fun hc => ?_⟩
  simp only [← bump_iterate_of_wrap hc]
  exact ⟨hnew.received, hnew.sent, hnew.errors⟩

end Sys2Proof.Machine
end

section
/-!
SUPPORT. The two memories of R42: a received byte completes, no step reaches outside either memory, and an
instruction stores at most in one cell of RXBUF and one slot of RING (spec 20_memory R53, R54, R57).
-/

namespace Sys2Proof.Machine

/-! ### Received bytes complete (R106) -/

/-- The selected row answers a next state: only `RX_END` can fault, on an index outside RXBUF. -/
theorem rxByte_completes {s : State} (hr : s.ready = true) (hi : s.rxIndex < s.cfg.rxBufSize) (b : Byte) :
    ∃ t, rxByte b s = .next t := by
  have hsel := decodeRx_rxWord s b
  have hrow := rxRow_mem s b
  rw [← exec_rxRow]
  generalize s.rxRow b = i at hsel hrow ⊢
  simp only [rxRows, List.mem_cons, List.not_mem_nil, or_false] at hrow
  obtain rfl | rfl | rfl | rfl | rfl | rfl := hrow
  case inr.inr.inr.inl => exact ⟨_, execRxEnd_next.mpr ⟨hr, hsel, hi, _, rfl, rfl⟩⟩
  all_goals exact ⟨_, whenReady_next.mpr ⟨hr, selected_next.mpr ⟨hsel, rfl⟩⟩⟩

/-- Settles O6: the step of a received byte is `RxByte`, which completes. -/
theorem receivedByteAlwaysCompletes : Obligations.ReceivedByteAlwaysCompletes := by
  intro s b rest hr hs hi hin
  obtain ⟨t, ht⟩ := rxByte_completes (s := { s with inbox := rest }) hr hi b
  exact ⟨t, (step_of_rxByte (frameWaiting_eq_false.mpr (.inr hs)) hin).trans ht, ht⟩

/-! ### No step faults (R53, R216) -/

theorem State.Alike.refl (s : State) : s.Alike s := ⟨rfl, fun _ _ => rfl, fun _ _ => rfl⟩

/-- Alike outcomes are next states or refusals. -/
theorem OutAlike.safe {o o' : Out} (h : OutAlike o o') : Safe o := by
  cases h <;> exact nofun

/-- Settles O58: a state is alike itself, and alike states that meet the invariant have alike outcomes, none of
which is a fault, for the invariant keeps `rx_index` inside RXBUF and `head` inside RING. -/
theorem stepNeverFaults : Obligations.StepNeverFaults :=
  fun s hs => (outAlike_step (.refl s) hs hs).safe

/-! ### The rows of a received byte -/

/-- What a row of a received byte does to the memories: `RX_END` closes and finishes a frame, `RX_DATA` stores
its byte, and the others store nothing (R100 to R105). -/
theorem rxRow_next {b : Byte} {i : Instr} {s t : State} (hi : i ∈ rxRows b) (h : exec i s = .next t) :
    (i = .rxEnd b ∧ ∃ u r, closeFrame s = .next u ∧ t = finishFrame r u) ∨
      (i = .rxData b ∧ t = { s.setRxCell s.rxIndex b with rxIndex := s.rxIndex + 1 }) ∨
      (t.rxBuf = s.rxBuf ∧ t.ring = s.ring ∧ t.newestId = s.newestId) := by
  simp only [rxRows, List.mem_cons, List.not_mem_nil, or_false] at hi
  obtain rfl | rfl | rfl | rfl | rfl | rfl := hi
  case inr.inr.inr.inl =>
    obtain ⟨-, -, hindex, u, hu, rfl⟩ := execRxEnd_next.mp h
    exact .inl ⟨rfl, u, _, closeFrame_next.mpr ⟨hindex, hu⟩, rfl⟩
  all_goals obtain ⟨-, ⟨⟩⟩ := selected_next.mp (whenReady_next.mp h).2
  case inr.inr.inr.inr.inl => exact .inr (.inl ⟨rfl, rfl⟩)
  all_goals exact .inr (.inr ⟨rfl, rfl, rfl⟩)

/-! ### The receive buffer (R54, R57) -/

theorem rxBuf_enqueue (m : Command) (s : State) : (s.enqueue m).rxBuf = s.rxBuf := by
  obtain ⟨-, h⟩ | ⟨-, h⟩ := enqueue_cases m s <;> rw [h] <;> rfl

theorem rxBuf_finishFrame (r : Payload) (s : State) : (finishFrame r s).rxBuf = s.rxBuf := by
  obtain ⟨-, -, -, -, hbuf, -⟩ := finishFrame_frame r s
  exact hbuf

/-- Only `RX_END` and `RX_DATA` store in RXBUF, but for a drain of the byte source. -/
theorem rxBuf_of_exec {i : Instr} {s t : State} (h : exec i s = .next t)
    (hp : i ≠ .processAvailableInput) (hw : rxBufWriter i = false) : t.rxBuf = s.rxBuf := by
  cases exec_effect h with
  | byteReceived hi =>
    obtain ⟨rfl, -⟩ | ⟨rfl, -⟩ | ⟨hbuf, -⟩ := rxRow_next hi h
    · cases hw
    · cases hw
    · exact hbuf
  | frameFinished => exact rxBuf_finishFrame _ s
  | enqueued m => exact rxBuf_enqueue m s
  | sourceDrained => exact absurd rfl hp
  | reported | sessionInitialised | bufferInitialised | dequeued => rfl

/-- A row of a received byte stores at `rx_index` or nowhere (R103, R104). -/
theorem rxCell_of_rxRow {b : Byte} {i : Instr} {s t : State} (hi : i ∈ rxRows b)
    (h : exec i s = .next t) {a : Nat} (ha : a ≠ s.rxIndex) : t.rxCell a = s.rxCell a := by
  obtain ⟨-, u, r, hu, rfl⟩ | ⟨-, rfl⟩ | ⟨hbuf, -⟩ := rxRow_next hi h
  · obtain ⟨-, rfl⟩ := closeFrame_next.mp hu
    rw [State.rxCell, rxBuf_finishFrame]
    exact Memory.read_write_ne ha _ _
  · exact Memory.read_write_ne ha _ _
  · rw [State.rxCell, hbuf, State.rxCell]

/-- Settles O52: the two instructions that store in RXBUF are rows of a received byte. -/
theorem receiveBufferFrame : Obligations.ReceiveBufferFrame := by
  intro s t i h hp
  refine ⟨rxBuf_of_exec h hp, fun hw a ha => ?_⟩
  cases i with
  | rxEnd b | rxData b => exact rxCell_of_rxRow (b := b) (by simp [rxRows]) h ha
  | _ => cases hw

/-! ### The command ring (R54, R57, R152) -/

/-- An enqueue stores in the slot it computes (R152). -/
theorem slot_enqueue {s : State} {a : Nat} (m : Command) (ha : a ≠ s.storedSlot) :
    (s.enqueue m).slot a = s.slot a := by
  cases hf : s.isFull <;>
    simp only [State.storedSlot, State.enqueue, hf, Bool.false_eq_true, if_true, if_false] at ha ⊢
  · exact Memory.read_write_ne ha _ _
  · exact Memory.read_write_ne ha _ _

/-- So does a completed frame, if at all (R108). -/
theorem slot_finishFrame {s : State} {a : Nat} (r : Payload) (ha : a ≠ s.storedSlot) :
    (finishFrame r s).slot a = s.slot a := by
  cases r with
  | ok m =>
    have hen : (s.settle.enqueue m).slot a = s.slot a := slot_enqueue m ha
    simp only [finishFrame, frameAccept]
    split <;> exact hen
  | unrecognizedCommand | invalidParams => rfl

/-- So does a row of a received byte (R103). -/
theorem slot_of_rxRow {b : Byte} {i : Instr} {s t : State} (hi : i ∈ rxRows b)
    (h : exec i s = .next t) {a : Nat} (ha : a ≠ s.storedSlot) : t.slot a = s.slot a := by
  obtain ⟨-, u, r, hu, rfl⟩ | ⟨-, rfl⟩ | ⟨-, hring, -⟩ := rxRow_next hi h
  · obtain ⟨-, rfl⟩ := closeFrame_next.mp hu
    exact slot_finishFrame r ha
  · rfl
  · rw [State.slot, hring, State.slot]

/-- Every instruction stores in that slot of RING or in none, but for a drain of the byte source. -/
theorem slot_of_exec {i : Instr} {s t : State} (h : exec i s = .next t)
    (hp : i ≠ .processAvailableInput) {a : Nat} (ha : a ≠ s.storedSlot) : t.slot a = s.slot a := by
  cases exec_effect h with
  | byteReceived hi => exact slot_of_rxRow hi h ha
  | frameFinished => exact slot_finishFrame _ ha
  | enqueued m => exact slot_enqueue m ha
  | sourceDrained => exact absurd rfl hp
  | reported | sessionInitialised | bufferInitialised | dequeued => rfl

/-- An instruction that enqueues nothing leaves RING alone, and takes no id; only a reset changes `newest_id`. -/
theorem ring_of_exec {i : Instr} {s t : State} (h : exec i s = .next t)
    (hp : i ≠ .processAvailableInput) (hw : ringWriter i = false) :
    t.ring = s.ring ∧ (i ≠ .initSession → i ≠ .cbInit → t.newestId = s.newestId) := by
  cases exec_effect h with
  | byteReceived hi =>
    obtain ⟨rfl, -⟩ | ⟨-, rfl⟩ | ⟨-, hring, hid⟩ := rxRow_next hi h
    · cases hw
    · exact ⟨rfl, fun _ _ => rfl⟩
    · exact ⟨hring, fun _ _ => hid⟩
  | frameFinished hi => simp [ringWriter, frameRow, hi] at hw
  | enqueued => cases hw
  | sourceDrained => exact absurd rfl hp
  | sessionInitialised => exact ⟨rfl, fun hne => absurd rfl hne⟩
  | bufferInitialised => exact ⟨rfl, fun _ hne => absurd rfl hne⟩
  | reported | dequeued => exact ⟨rfl, fun _ _ => rfl⟩

/-- Settles O53: every store in RING is that of an enqueue. -/
theorem commandRingFrame : Obligations.CommandRingFrame := by
  intro s t i h hp
  exact ⟨fun hw => (ring_of_exec h hp hw).1, fun _ _ => slot_of_exec h hp,
    fun hw => (ring_of_exec h hp hw).2⟩

end Sys2Proof.Machine
end

section
/-!
SUPPORT. The encoding (spec 30_encoding): the operand readers give back what the encoder writes, the round trip of
all 38 rows, and where the rows of a received byte run (R74, R106).
-/

namespace Sys2Proof.Machine

/-! ### Operand bytes (log entry 7) -/

/-- A number that fits its bytes reads back from them. -/
theorem readLe_leBytes {n v : Nat} (h : v < 256 ^ n) (rest : Text) :
    readLe n (leBytes n v ++ rest) = some (v, rest) := by
  induction n generalizing v with
  | zero =>
    obtain rfl : v = 0 := by simpa using h
    rfl
  | succ n ih =>
    have hv : v / 256 < 256 ^ n := Nat.div_lt_of_lt_mul (by rwa [pow_succ'] at h)
    simp [readLe, leBytes, ih hv, Nat.mod_add_div]

theorem readF64_leBytes (v : F64) (rest : Text) :
    readF64 (leBytes 8 v.toNat ++ rest) = some (v, rest) := by
  simp [readF64, readLe_leBytes (n := 8) v.isLt]

theorem readF64s_f64Bytes (vs : List F64) (rest : Text) :
    readF64s vs.length (f64Bytes vs ++ rest) = some (vs, rest) := by
  induction vs with
  | nil => rfl
  | cons v vs ih => simp [readF64s, f64Bytes, readF64_leBytes, ih]

@[simp] theorem codeOfNat_toNat (code : Code) : codeOfNat code.toNat = some code := by
  cases code <;> rfl

@[simp] theorem actionOfNat_toNat (action : Action) : actionOfNat action.toNat = some action := by
  cases action <;> rfl

/-- A response kind reads back from its byte (R95). -/
theorem withKind_kindByte (kind : Kind) (k : Kind → Decoded) :
    withKind [BitVec.ofNat 8 kind.toNat] k = k kind := by
  cases kind <;> rfl

theorem withSize_leBytes {n : Nat} (h : n < 2 ^ 32) (k : Nat → Decoded) :
    withSize (leBytes 4 n) k = k n := by
  have hread := readLe_leBytes (n := 4) h []
  rw [List.append_nil] at hread
  rw [withSize, hread]

theorem withSample_sampleBytes (m : Sample) (rest : Text) (k : Sample → Text → Decoded) :
    withSample (sampleBytes m ++ rest) k = k m rest := by
  have hvalues : readF64s 4 (sampleBytes m ++ rest) =
      some ([m.battery, m.left, m.right, m.temp], leBytes 4 m.timestamp.toNat ++ rest) := by
    rw [sampleBytes, List.append_assoc]
    exact readF64s_f64Bytes [m.battery, m.left, m.right, m.temp] _
  simp [withSample, hvalues, readLe_leBytes (n := 4) m.timestamp.isLt]

theorem withSample_sampleBytes_alone (m : Sample) (k : Sample → Text → Decoded) :
    withSample (sampleBytes m) k = k m [] := by
  simpa using withSample_sampleBytes m [] k

/-- An id is its two bytes. -/
theorem append_idBytes (id : Word16) :
    BitVec.ofNat 8 (id.toNat / 256) ++ BitVec.setWidth 8 id = id := by
  apply BitVec.eq_of_toNat_eq
  have hlt := id.isLt
  rw [BitVec.toNat_append, ← Nat.shiftLeft_add_eq_or_of_lt (BitVec.isLt _), Nat.shiftLeft_eq,
    BitVec.toNat_ofNat, BitVec.toNat_setWidth]
  omega

/-- A command within the port's bounds reads back (R26). -/
theorem withCommand_commandBytes {c : Config} {m : Command} (h : m.wf c = true) (rest : Text)
    (k : Command → Text → Decoded) : withCommand c (commandBytes m ++ rest) k = k m rest := by
  obtain ⟨hmax, hbyte⟩ : m.params.length ≤ c.maxParams ∧ m.params.length < 256 := by
    simpa [Command.wf] using h
  have hcount : m.params.length % 256 = m.params.length := Nat.mod_eq_of_lt hbyte
  have hcode : m.code.toNat % 256 = m.code.toNat := by cases m.code <;> rfl
  have haction : m.action.toNat % 256 = m.action.toNat := by cases m.action <;> rfl
  simp [withCommand, commandBytes, leBytes, hcode, haction, hcount, not_lt.mpr hmax,
    readF64s_f64Bytes, append_idBytes]

theorem withCommand_commandBytes_alone {c : Config} {m : Command} (h : m.wf c = true)
    (k : Command → Text → Decoded) : withCommand c (commandBytes m) k = k m [] := by
  simpa using withCommand_commandBytes h [] k

/-! ### Payloads (R80, R81, R107) -/

@[simp] theorem nulFree_cons {b : Byte} {text : Text} :
    nulFree (b :: text) = true ↔ b ≠ 0x00 ∧ nulFree text = true := by
  simp [nulFree]

/-- A text without a NUL is read past. -/
theorem untilNul_append {text : Text} (h : nulFree text = true) (rest : Text) :
    untilNul (text ++ rest) = text ++ untilNul rest := by
  induction text with
  | nil => rfl
  | cons b text ih =>
    obtain ⟨hb, htext⟩ := nulFree_cons.mp h
    rw [List.cons_append, untilNul, if_neg hb, ih htext, List.cons_append]

theorem untilNul_of_nulFree {text : Text} (h : nulFree text = true) : untilNul text = text := by
  simpa [untilNul] using untilNul_append h []

theorem untilNul_append_nul {text : Text} (h : nulFree text = true) :
    untilNul (text ++ [0x00]) = text := by
  simpa [untilNul] using untilNul_append h [0x00]

/-- The row of a payload with a given code and tail (R81, R123). -/
def payloadRow (p : Text) : Code × Text → Instr
  | (.mv, tail) => .mv tail
  | (.st, tail) => .st tail
  | (.gt, tail) => .gt tail
  | (.sf, tail) => .sf tail
  | (.sb, tail) => .sb tail
  | (.sl, tail) => .sl tail
  | (.sr, tail) => .sr tail
  | (.unknown, _) => .unknownCode p

/-- A payload without a NUL decodes to the row of its code and tail. -/
theorem decode_cmd {c : Config} {p : Text} (h : nulFree p = true) :
    decode c .cmd p = .instr (payloadRow p (splitPayload c p)) := by
  have hdecode : decode c .cmd p = .instr (payloadRow (untilNul p) (splitPayload c (untilNul p))) := rfl
  rw [hdecode, untilNul_of_nulFree h]

/-- Two letters, the separator and a tail decode to the letters' row with that tail (R121 to R124). -/
theorem decode_command {c : Config} {l1 l2 : Byte} {tail : Text} (hc : c.readable = true)
    (h1 : l1 = 0x4D ∨ l1 = 0x53 ∨ l1 = 0x47) (h2 : l2 ≠ 0x00) (ht : nulFree tail = true) :
    decode c .cmd (l1 :: l2 :: c.sepCode :: tail) =
      .instr (payloadRow (l1 :: l2 :: c.sepCode :: tail) (lookupCode l1 l2, tail)) := by
  obtain ⟨⟨⟨hM, hS⟩, hG⟩, hsep⟩ :
      ((isWs c 0x4D = false ∧ isWs c 0x53 = false) ∧ isWs c 0x47 = false) ∧ c.sepCode ≠ 0x00 := by
    simpa [Config.readable] using hc
  obtain ⟨hws, hnul⟩ : isWs c l1 = false ∧ l1 ≠ 0x00 := by
    obtain rfl | rfl | rfl := h1
    · exact ⟨hM, by decide⟩
    · exact ⟨hS, by decide⟩
    · exact ⟨hG, by decide⟩
  have hsplit : splitPayload c (l1 :: l2 :: c.sepCode :: tail) = (lookupCode l1 l2, tail) := by
    have h := splitPayload_white (white := []) (c2 := l2) (rest := c.sepCode :: tail) nofun hws
    rwa [skipSepCode_sep] at h
  have hfree : nulFree (l1 :: l2 :: c.sepCode :: tail) = true := by
    simp only [nulFree_cons]
    exact ⟨hnul, h2, hsep, ht⟩
  rw [decode_cmd hfree, hsplit]

/-- A payload of no command code decodes to the row of its whole text (R122, R123). -/
theorem decode_unknownCode {c : Config} {p : Text} (h : nulFree p = true)
    (hcode : (splitPayload c p).1 = .unknown) : decode c .cmd p = .instr (.unknownCode p) := by
  rw [decode_cmd h]
  generalize splitPayload c p = split at hcode
  obtain ⟨code, tail⟩ := split
  obtain rfl : code = .unknown := hcode
  rfl

/-! ### Transmit texts (R78, R79) -/

/-- No response frame begins another: two tokens differ before the shorter one ends. -/
theorem startsWith_responseFrame (c : Config) (k k' : Kind) :
    startsWith (responseFrame c k) (responseFrame c k') = decide (k = k') := by
  cases k <;> cases k' <;> simp [responseFrame, token, startsWith]

/-- No response frame begins a telemetry text: no token begins with `T`. -/
theorem startsWith_responseFrame_telemetry (c : Config) (k : Kind) (rest : Text) :
    startsWith (responseFrame c k) (c.startMarker :: (telToken ++ rest)) = false := by
  cases k <;> simp [responseFrame, token, startsWith, telToken]

theorem stripPrefix_append (t s : Text) : stripPrefix t (t ++ s) = some s := by
  induction t with
  | nil => rfl
  | cons a t ih => simp [stripPrefix, ih]

/-- The row of a response frame (R78). -/
def respRow : Kind → Instr
  | .ok => .respOk
  | .nack => .respNack
  | .errInvalidCommand => .respErrInvalidCommand
  | .errInvalidParams => .respErrInvalidParams
  | .errBufferFull => .respErrBufferFull

theorem decodeTx_responseFrame (c : Config) (k : Kind) :
    decodeTx c (responseFrame c k) = .instr (respRow k) := by
  unfold decodeTx
  simp only [startsWith_responseFrame]
  cases k <;> rfl

theorem decodeTx_telemetry (c : Config) (m : Sample) :
    decodeTx c (c.startMarker :: (telToken ++ sampleBytes m)) = .instr (.tel m) := by
  have hstrip : stripPrefix (c.startMarker :: telToken) (c.startMarker :: (telToken ++ sampleBytes m)) =
      some (sampleBytes m) := stripPrefix_append (c.startMarker :: telToken) (sampleBytes m)
  simp only [decodeTx, startsWith_responseFrame_telemetry, Bool.false_eq_true, if_false, hstrip,
    withSample_sampleBytes_alone]

/-! ### The round trip -/

/-- Settles O2: in each row the reader of its operands gives back what the encoder wrote. -/
theorem decodeEncodeRoundTrip : Obligations.DecodeEncodeRoundTrip := by
  intro c i hc hi
  cases i with
  | wsStart | wsDrop | rxRestart | rxEnd | rxData | rxOverflow => rfl
  | mv | st | gt | sf | sb | sl | sr => exact decode_command hc (by decide) (by decide) hi
  | unknownCode p =>
    obtain ⟨hnul, hcode⟩ : nulFree p = true ∧ (splitPayload c p).1 = .unknown := by
      simpa [Instr.wf] using hi
    exact decode_unknownCode hnul hcode
  | respOk => exact decodeTx_responseFrame c .ok
  | respNack => exact decodeTx_responseFrame c .nack
  | respErrInvalidCommand => exact decodeTx_responseFrame c .errInvalidCommand
  | respErrInvalidParams => exact decodeTx_responseFrame c .errInvalidParams
  | respErrBufferFull => exact decodeTx_responseFrame c .errBufferFull
  | tel m => exact decodeTx_telemetry c m
  | initSession | processAvailableInput | hasPendingCommand | getNextCommand => rfl
  | getStatistics | resetStatistics | cbInit | cbDequeue | cbIsEmpty | cbIsFull | cbCount => rfl
  | sendResponse kind | encodeResponse kind => exact withKind_kindByte kind _
  | sendTelemetry m => exact withSample_sampleBytes_alone m fun m _ => .instr (.sendTelemetry m)
  | cbEnqueue m => exact withCommand_commandBytes_alone hi fun m _ => .instr (.cbEnqueue m)
  | encodeCommand m n =>
    obtain ⟨hm, hn⟩ : m.wf c = true ∧ n < 2 ^ 32 := by simpa [Instr.wf] using hi
    exact (withCommand_commandBytes hm (leBytes 4 n) fun m rest =>
      withSize rest fun n => .instr (.encodeCommand m n)).trans (withSize_leBytes hn _)
  | encodeTelemetry m n =>
    have hn : n < 2 ^ 32 := by simpa [Instr.wf] using hi
    exact (withSample_sampleBytes m (leBytes 4 n) fun m rest =>
      withSize rest fun n => .instr (.encodeTelemetry m n)).trans (withSize_leBytes hn _)
  | parseResponse text =>
    exact congrArg (fun t => Decoded.instr (.parseResponse t)) (untilNul_append_nul hi)

/-- Settles O1: each word and each text evaluates. -/
theorem tableWordsDecode : Obligations.TableWordsDecode :=
  ⟨rfl, rfl, rfl, rfl, rfl, rfl, rfl, rfl, rfl, rfl, rfl, rfl, rfl, rfl, rfl, rfl⟩

/-! ### The rows of a received byte (R74, R106) -/

/-- Settles O4: the row of R106 is the one the decode word selects. -/
theorem receivedByteSelectsOneRow : Obligations.ReceivedByteSelectsOneRow := decodeRx_rxWord

/-- In a ready session the command of a payload finishes the frame (R103). -/
theorem runPayload_of_ready {s : State} (h : s.ready = true) (p : Text) :
    runPayload p s = .next (finishFrame (decodePayload s.cfg p) s) := by
  rw [runPayload_eq, whenReady_of_ready h]

/-- Closing a frame refuses nothing: it answers a state that is ready as before, or faults. -/
theorem closeFrame_cases (s : State) :
    (∃ t, closeFrame s = .next t ∧ t.ready = s.ready) ∨ closeFrame s = .fault (.rxBufIndex s.rxIndex) := by
  unfold closeFrame
  split
  · exact .inl ⟨_, rfl, rfl⟩
  · exact .inr rfl

/-- A row of format RXBYTE in a ready state is the selection and an outcome that is no refusal. -/
theorem exec_of_mem_rxRows {s : State} {b : Byte} {i : Instr} (hr : s.ready = true) (hi : i ∈ rxRows b) :
    ∃ o, (∀ r, o ≠ .refused r) ∧ exec i s = selected s i b o := by
  simp only [rxRows, List.mem_cons, List.not_mem_nil, or_false] at hi
  obtain rfl | rfl | rfl | rfl | rfl | rfl := hi
  case inr.inr.inr.inl =>
    refine ⟨_, fun r hrefused => ?_, whenReady_of_ready hr _⟩
    obtain ⟨t, ht, htr⟩ | hf := closeFrame_cases s
    · rw [ht, andThen, runPayload_of_ready (htr.trans hr)] at hrefused
      cases hrefused
    · rw [hf, andThen] at hrefused
      cases hrefused
  all_goals exact ⟨.next _, nofun, whenReady_of_ready hr _⟩

/-- Settles O7: the only refusal of a row in a ready state is that of the selection. -/
theorem rowsRunOnlyWhereSelected : Obligations.RowsRunOnlyWhereSelected := by
  intro s b i hr hi
  obtain ⟨o, ho, hexec⟩ := exec_of_mem_rxRows hr hi
  rw [hexec, selected]
  by_cases hsel : decodeRx (s.rxWord b) b = .instr i
  · simp only [hsel, if_true, ne_eq, ho, not_false_eq_true]
  · simp only [hsel, if_false, ne_eq, not_true_eq_false]

/-! ### Responses (R169, R186) -/

/-- Settles O42: each of the six rows is `respond` of its kind. -/
theorem responsesAreSent : Obligations.ResponsesAreSent := by
  intro s i k hr hi
  have hexec : exec i s = whenReady s (.next (s.respond k)) := by
    simp only [List.mem_cons, Prod.mk.injEq, and_true, List.not_mem_nil, or_false] at hi
    obtain rfl | ⟨rfl, rfl⟩ | ⟨rfl, rfl⟩ | ⟨rfl, rfl⟩ | ⟨rfl, rfl⟩ | ⟨rfl, rfl⟩ := hi <;> rfl
  rw [hexec, whenReady_of_ready hr]
  rfl

end Sys2Proof.Machine
end

section
/-!
SUPPORT. A whole frame on the wire (spec 40 R100 to R107): a start marker, payload bytes, an end marker.
-/

namespace Sys2Proof.Machine

/-! ### The stored payload (R104, R107) -/

/-- Storing a text leaves the cells below it alone. -/
theorem read_storeText_below {m : List Host.Cell} {x a : Nat} (p : Text) (h : x < a) :
    Memory.read 0x00 (storeText m a p) x = Memory.read 0x00 m x := by
  induction p generalizing m a with
  | nil => rfl
  | cons b p ih => rw [storeText, ih (Nat.lt_succ_of_lt h), Memory.read_write_ne h.ne]

/-- Storing a text leaves the cells behind it alone. -/
theorem read_storeText_above {m : List Host.Cell} {x a : Nat} (p : Text) (h : a + p.length ≤ x) :
    Memory.read 0x00 (storeText m a p) x = Memory.read 0x00 m x := by
  induction p generalizing m a with
  | nil => rfl
  | cons b p ih =>
    rw [List.length_cons] at h
    rw [storeText, ih (by omega), Memory.read_write_ne (by omega)]

/-- A stored text reads back. -/
theorem read_storeText {m : List Host.Cell} (hm : Memory.wf 0x00 m = true) {p : Text} {k : Nat} {b : Byte}
    (a : Nat) (h : p[k]? = some b) : Memory.read 0x00 (storeText m a p) (a + k) = b := by
  induction p generalizing m a k with
  | nil => cases h
  | cons c p ih =>
    cases k with
    | zero =>
      obtain rfl : c = b := by simpa using h
      exact (read_storeText_below p a.lt_succ_self).trans (Memory.read_write_self hm a c)
    | succ k =>
      rw [storeText, ← Nat.succ_add_eq_add_succ a k]
      exact ih (Memory.wf_write hm a c) (a + 1) h

/-- So do the bytes of a payload that is stored with its NUL. -/
theorem read_payload {m : List Host.Cell} (hm : Memory.wf 0x00 m = true) {p : Text} {k : Nat} {b : Byte}
    (h : p[k]? = some b) : Memory.read 0x00 (storeText m 0 (p ++ [0x00])) k = b := by
  obtain ⟨hk, -⟩ := List.getElem?_eq_some_iff.mp h
  rw [← List.getElem?_append_left (l₂ := [0x00]) hk] at h
  simpa only [Nat.zero_add] using read_storeText hm 0 h

/-- The NUL stands behind them. -/
theorem read_payload_nul {m : List Host.Cell} (hm : Memory.wf 0x00 m = true) (p : Text) :
    Memory.read 0x00 (storeText m 0 (p ++ [0x00])) p.length = 0x00 := by
  have h : (p ++ [0x00])[p.length]? = some (0x00 : Byte) := by simp
  simpa only [Nat.zero_add] using read_storeText hm 0 h

theorem storeText_append (m : List Host.Cell) (a : Nat) (p q : Text) :
    storeText m a (p ++ q) = storeText (storeText m a p) (a + p.length) q := by
  induction p generalizing m a with
  | nil => rfl
  | cons b p ih =>
    rw [List.cons_append, storeText, ih, storeText, List.length_cons, Nat.add_right_comm, Nat.add_assoc]

/-- Cells that hold a text and a NUL are the C string of the text before its first NUL (R17, R107). -/
theorem cstr_eq_untilNul {m : List Host.Cell} {p : Text} {n a : Nat} (hn : p.length < n)
    (hp : ∀ k b, p[k]? = some b → Memory.read 0x00 m (a + k) = b)
    (hnul : Memory.read 0x00 m (a + p.length) = 0x00) : cstr m n a = untilNul p := by
  induction p generalizing n a with
  | nil =>
    cases n with
    | zero => rfl
    | succ n => simpa [cstr, untilNul] using hnul
  | cons b p ih =>
    obtain ⟨n, rfl⟩ := Nat.exists_eq_succ_of_ne_zero (Nat.ne_zero_of_lt hn)
    have hb : Memory.read 0x00 m a = b := hp 0 b rfl
    have htail : cstr m n (a + 1) = untilNul p := by
      refine ih (Nat.lt_of_succ_lt_succ hn) (fun k b' hk => ?_) ?_
      · rw [Nat.add_right_comm, Nat.add_assoc]
        exact hp (k + 1) b' hk
      · rw [Nat.add_right_comm, Nat.add_assoc]
        exact hnul
    simp only [cstr, untilNul, hb, htail]

/-! ### The received bytes of a frame -/

/-- A selected row of a ready state is its own outcome. -/
theorem whenReady_selected {s : State} {b : Byte} {i : Instr} {o : Out} (hr : s.ready = true)
    (hi : s.rxRow b = i) : whenReady s (selected s i b o) = o := by
  rw [whenReady_of_ready hr, selected, decodeRx_rxWord, hi, if_pos rfl]

/-- A start marker opens a frame in every state (R100, R102). -/
theorem rxByte_startMarker {s : State} (hr : s.ready = true) :
    rxByte s.cfg.startMarker s = .next s.openFrame := by
  have hrow : s.rxRow s.cfg.startMarker = .wsStart s.cfg.startMarker ∨
      s.rxRow s.cfg.startMarker = .rxRestart s.cfg.startMarker := by
    by_cases hw : s.state = .waitingStart <;> simp [State.rxRow, hw]
  obtain hrow | hrow := hrow <;> rw [← exec_rxRow, hrow] <;> exact whenReady_selected hr hrow

/-- Bytes stored from `rx_index` on, which advances past them (R104). -/
def State.store (p : Text) (s : State) : State :=
  { s with rxBuf := storeText s.rxBuf s.rxIndex p, rxIndex := s.rxIndex + p.length }

theorem State.store_cons (b : Byte) (p : Text) (s : State) : s.store (b :: p) = (s.store [b]).store p := by
  simp [State.store, storeText, Nat.add_assoc, Nat.add_comm 1]

/-- A byte that is no marker is stored while there is room (R104). -/
theorem rxByte_data {s : State} {b : Byte} (hr : s.ready = true) (hs : s.state ≠ .waitingStart)
    (hb : b ≠ s.cfg.startMarker ∧ b ≠ s.cfg.endMarker) (hi : s.rxIndex < s.cfg.maxPayload) :
    rxByte b s = .next (s.store [b]) := by
  have hroom : s.rxIndex < s.cfg.rxBufSize - 1 := hi
  have hrow : s.rxRow b = .rxData b := by simp [State.rxRow, hs, hb, hroom]
  rw [← exec_rxRow, hrow]
  exact whenReady_selected hr hrow

/-- An end marker closes and finishes the frame (R103). -/
theorem rxByte_endMarker {s u : State} (hr : s.ready = true) (hs : s.state ≠ .waitingStart)
    (hu : closeFrame s = .next u) :
    rxByte s.cfg.endMarker s = .next (finishFrame (decodePayload u.cfg u.payloadString) u) := by
  have hrow := rxRow_endMarker (ready_iff.mp hr).1 hs
  obtain ⟨hi, hclosed⟩ := closeFrame_next.mp hu
  rw [← exec_rxRow, hrow]
  refine execRxEnd_next.mpr ⟨hr, ?_, hi, u, hclosed, rfl⟩
  rw [decodeRx_rxWord, hrow]

/-- A byte that queues nothing leaves the count of a sequence alone (R173). -/
theorem rxBytes_cons_of_next {s t : State} {b : Byte} (bytes : Text) (n : Nat) (h : rxByte b s = .next t)
    (hid : t.newestId = s.newestId) : rxBytes (b :: bytes) n s = rxBytes bytes n t := by
  simp only [rxBytes, h, hid, if_true]

/-- Payload bytes with room for all of them are stored in order (R104). -/
theorem rxBytes_data {s : State} {p : Text} (rest : Text) (n : Nat) (hr : s.ready = true)
    (hs : s.state ≠ .waitingStart) (hp : ∀ b ∈ p, b ≠ s.cfg.startMarker ∧ b ≠ s.cfg.endMarker)
    (hi : s.rxIndex + p.length ≤ s.cfg.maxPayload) :
    rxBytes (p ++ rest) n s = rxBytes rest n (s.store p) := by
  induction p generalizing s with
  | nil => rfl
  | cons b p ih =>
    rw [List.length_cons] at hi
    obtain ⟨hb, hp⟩ := List.forall_mem_cons.mp hp
    have hbyte : rxByte b s = .next (s.store [b]) := rxByte_data hr hs hb (by omega)
    have hroom : (s.store [b]).rxIndex + p.length ≤ (s.store [b]).cfg.maxPayload := by
      simp only [State.store, List.length_singleton]
      omega
    calc rxBytes (b :: p ++ rest) n s = rxBytes (p ++ rest) n (s.store [b]) :=
          rxBytes_cons_of_next (p ++ rest) n hbyte rfl
      _ = rxBytes rest n ((s.store [b]).store p) := ih hr hs hp hroom
      _ = rxBytes rest n (s.store (b :: p)) := by rw [← State.store_cons]

/-- An accepted command passes RXBUF through (R108). -/
theorem frameAccept_with (m : Command) (s : State) (buf : List Host.Cell) :
    frameAccept m { s with rxBuf := buf } = { frameAccept m s with rxBuf := buf } := by
  have hfull : State.isFull { s with rxBuf := buf } = s.isFull := rfl
  simp only [frameAccept, State.enqueue, hfull]
  split <;> rfl

/-- A completed frame resets the assembler's registers and passes RXBUF through (R103). -/
theorem finishFrame_with (r : Payload) (s : State) (state : AsmState) (index : Nat)
    (buf : List Host.Cell) :
    finishFrame r { s with state := state, rxIndex := index, rxBuf := buf } =
      { finishFrame r s with rxBuf := buf } := by
  cases r with
  | ok m => exact frameAccept_with m s.settle buf
  | unrecognizedCommand | invalidParams => rfl

/-- A whole frame does what its end marker does in the opened frame that holds the bytes. -/
theorem rxBytes_frame {s t : State} {p : Text} (n : Nat) (hr : s.ready = true)
    (hp : ∀ b ∈ p, b ≠ s.cfg.startMarker ∧ b ≠ s.cfg.endMarker) (hlen : p.length ≤ s.cfg.maxPayload)
    (ht : rxByte s.cfg.endMarker (s.openFrame.store p) = .next t) :
    (rxBytes (s.cfg.startMarker :: (p ++ [s.cfg.endMarker])) n s).1 = .next t := by
  have hroom : s.openFrame.rxIndex + p.length ≤ s.openFrame.cfg.maxPayload :=
    (Nat.zero_add p.length).trans_le hlen
  rw [rxBytes_cons_of_next _ n (rxByte_startMarker hr) rfl,
    rxBytes_data (s := s.openFrame) _ n hr nofun hp hroom]
  simp only [rxBytes, ht]

/-- The state in which a frame with the payload `p` is closed (R103). -/
def State.closedFrame (p : Text) (s : State) : State :=
  { s.countReceived with
    state := .frameReady
    rxIndex := p.length
    rxBuf := storeText s.rxBuf 0 (p ++ [0x00]) }

/-- The frame that holds the bytes of a payload is closed by its NUL. -/
theorem closeFrame_store {s : State} {p : Text} (hlen : p.length ≤ s.cfg.maxPayload) :
    closeFrame (s.openFrame.store p) = .next (s.closedFrame p) := by
  have hindex : (s.openFrame.store p).rxIndex = p.length := Nat.zero_add _
  refine closeFrame_next.mpr ⟨?_, ?_⟩
  · rw [hindex]
    exact Nat.lt_succ_of_le hlen
  · simp [State.closedFrame, State.store, State.openFrame, State.setRxCell, State.countReceived,
      storeText_append, storeText]

/-- A closed frame's payload string ends at the first NUL of its bytes (R107). -/
theorem payloadString_closedFrame {s : State} {p : Text} (hwf : Memory.wf 0x00 s.rxBuf = true)
    (hlen : p.length ≤ s.cfg.maxPayload) : (s.closedFrame p).payloadString = untilNul p :=
  cstr_eq_untilNul (a := 0) (Nat.lt_succ_of_le hlen)
    (fun k b hk => by rw [Nat.zero_add]; exact read_payload hwf hk)
    (by rw [Nat.zero_add]; exact read_payload_nul hwf p)

/-- Settles O16: the start marker opens a frame, the bytes are stored in it, and the end marker closes and
finishes it. -/
theorem frameOnTheWireRunsItsPayload : Obligations.FrameOnTheWireRunsItsPayload := by
  intro s p hr hwf hlen hp
  refine ⟨storeText s.rxBuf 0 (p ++ [0x00]), wf_storeText _ hwf 0, fun a b => read_payload hwf,
    read_payload_nul hwf p, fun a ha => read_storeText_above _ (by simpa using ha), ?_⟩
  have hend : rxByte s.cfg.endMarker (s.openFrame.store p) =
      .next (finishFrame (decodePayload s.cfg (s.closedFrame p).payloadString) (s.closedFrame p)) :=
    rxByte_endMarker (s := s.openFrame.store p) hr nofun (closeFrame_store hlen)
  rw [rxBytes_frame 0 hr hp hlen hend, payloadString_closedFrame hwf hlen, State.closedFrame,
    finishFrame_with]

end Sys2Proof.Machine
end

section
/-!
SUPPORT. The six transitions of the Frame Assembler one by one, what a completed frame leaves (spec 40 R100 to R109),
and the run of bytes that is longer than a payload (R105).
-/

namespace Sys2Proof.Machine

/-! ### The row that a state and a byte select (R74, R106) -/

section

variable {s : State} {b : Byte}

theorem rxRow_wsStart (hs : s.state = .waitingStart) (hb : b = s.cfg.startMarker) :
    s.rxRow b = .wsStart b := by
  rw [State.rxRow, if_pos hs, if_pos hb]

theorem rxRow_wsDrop (hs : s.state = .waitingStart) (hb : b ≠ s.cfg.startMarker) :
    s.rxRow b = .wsDrop b := by
  rw [State.rxRow, if_pos hs, if_neg hb]

theorem rxRow_rxRestart (hs : s.state ≠ .waitingStart) (hb : b = s.cfg.startMarker) :
    s.rxRow b = .rxRestart b := by
  rw [State.rxRow, if_neg hs, if_pos hb]

theorem rxRow_rxData (hs : s.state ≠ .waitingStart) (hb : b ≠ s.cfg.startMarker) (he : b ≠ s.cfg.endMarker)
    (hi : s.rxIndex < s.cfg.rxBufSize - 1) : s.rxRow b = .rxData b := by
  rw [State.rxRow, if_neg hs, if_neg hb, if_neg he, if_pos hi]

theorem rxRow_rxOverflow (hs : s.state ≠ .waitingStart) (hb : b ≠ s.cfg.startMarker)
    (he : b ≠ s.cfg.endMarker) (hi : s.rxIndex = s.cfg.rxBufSize - 1) : s.rxRow b = .rxOverflow b := by
  rw [State.rxRow, if_neg hs, if_neg hb, if_neg he, if_neg hi.not_lt]

end

/-! ### The transitions (R100 to R105) -/

/-- Settles O10: each byte selects its row, which opens a frame or does nothing. -/
theorem waitingStartBytes : Obligations.WaitingStartBytes := fun _ _ hr hs =>
  ⟨fun hb => whenReady_selected hr (rxRow_wsStart hs hb),
    fun hb => whenReady_selected hr (rxRow_wsDrop hs hb)⟩

/-- Settles O11: the restart opens a frame, and the state is `RECEIVING` already. -/
theorem receivingStartMarkerRestarts : Obligations.ReceivingStartMarkerRestarts := by
  intro s b hr hs hb
  have hopen : s.openFrame = { s with rxIndex := 0 } := by rw [State.openFrame, ← hs]
  rw [← hopen]
  exact whenReady_selected hr (rxRow_rxRestart (by simp [hs]) hb)

/-- Settles O13: the byte selects the row that stores it. -/
theorem payloadByteIsStored : Obligations.PayloadByteIsStored := fun _ _ hr hs hb he hi =>
  whenReady_selected hr (rxRow_rxData (by simp [hs]) hb he hi)

/-- Settles O14: the byte selects the row that raises the overflow. -/
theorem overflowDiscardsFrame : Obligations.OverflowDiscardsFrame := fun _ _ hr hs hb he hi =>
  whenReady_selected hr (rxRow_rxOverflow (by simp [hs]) hb he hi)

/-- Settles O12: the frame is closed, and the command of its payload finishes it. -/
theorem endMarkerCompletesFrame : Obligations.EndMarkerCompletesFrame := by
  rintro s t b hr hs rfl hi ht
  have hw : s.state ≠ .waitingStart := by simp [hs]
  have hclosed : closeFrame s = .next t := closeFrame_next.mpr ⟨hi, ht⟩
  have hcfg : t.cfg = s.cfg := ht ▸ rfl
  have hready : t.ready = true := ht ▸ hr
  have hend : exec (.rxEnd s.cfg.endMarker) s = .next (finishFrame (decodePayload s.cfg t.payloadString) t) := by
    rw [← rxRow_endMarker (ready_iff.mp hr).1 hw, exec_rxRow, rxByte_endMarker hr hw hclosed, hcfg]
  obtain ⟨-, -, hstate, hindex, -⟩ := finishFrame_frame (decodePayload s.cfg t.payloadString) t
  refine ⟨hend, hstate, hindex, ?_⟩
  rw [hend, ← hcfg, exec_decodeCmd, runPayload_of_ready hready]

/-! ### The completed frame (R107 to R109) -/

/-- Settles O15: below the NUL the cells are those of the text, and the NUL ends it. -/
theorem payloadStringIsReceivedText : Obligations.PayloadStringIsReceivedText := by
  intro s n hwf hn
  have hlen : ((List.range n).map s.rxCell).length = n := by simp
  refine cstr_eq_untilNul (by rw [hlen]; exact Nat.lt_succ_of_le hn) (fun k b hk => ?_) ?_
  · obtain ⟨hlt, rfl⟩ : k < n ∧ s.rxCell k = b := by
      simpa [List.getElem?_eq_some_iff] using hk
    rw [Nat.zero_add]
    exact Memory.read_write_ne hlt.ne _ _
  · rw [hlen, Nat.zero_add]
    exact Memory.read_write_self hwf n 0x00

/-- Settles O22: both decode errors settle the assembler, count and respond; the unknown row is the first one. -/
theorem rejectedFrame : Obligations.RejectedFrame := fun _ =>
  ⟨fun _ hr => whenReady_of_ready hr _, rfl, rfl⟩

/-- Settles O23: a full buffer drops its oldest command for the new one, and one with room appends it. -/
theorem acceptedFrame : Obligations.AcceptedFrame := by
  intro s m
  obtain ⟨_, ⟨⟩, hfull, heq⟩ | ⟨_, ⟨⟩, hroom, heq⟩ | ⟨⟨⟩, -⟩ | ⟨⟨⟩, -⟩ := finishFrame_cases (.ok m) s
  · exact ⟨fun hroom => absurd hfull hroom, fun _ => heq⟩
  · exact ⟨fun _ => heq, fun hfull => absurd hfull hroom⟩

/-! ### An over-long run (R105) -/

/-- Outside a frame a byte that opens none is dropped (R101). -/
theorem rxByte_drop {s : State} {b : Byte} (hr : s.ready = true) (hs : s.state = .waitingStart)
    (hb : b ≠ s.cfg.startMarker) : rxByte b s = .next s := by
  have hrow := rxRow_wsDrop hs hb
  rw [← exec_rxRow, hrow]
  exact whenReady_selected hr hrow

/-- So is every sequence of them. -/
theorem rxBytes_drop {s : State} {bytes : Text} (n : Nat) (hr : s.ready = true) (hs : s.state = .waitingStart)
    (hb : ∀ b ∈ bytes, b ≠ s.cfg.startMarker) : rxBytes bytes n s = (.next s, n) := by
  induction bytes with
  | nil => rfl
  | cons b bytes ih =>
    obtain ⟨hb, hbytes⟩ := List.forall_mem_cons.mp hb
    rw [rxBytes_cons_of_next bytes n (rxByte_drop hr hs hb) rfl, ih hbytes]

/-- In a frame without room a byte that is no marker overflows (R105). -/
theorem rxByte_overflow {s : State} {b : Byte} (hr : s.ready = true) (hs : s.state ≠ .waitingStart)
    (hb : b ≠ s.cfg.startMarker ∧ b ≠ s.cfg.endMarker) (hi : s.rxIndex = s.cfg.maxPayload) :
    rxByte b s = .next s.countOverflow.settle := by
  have hrow := rxRow_rxOverflow hs hb.1 hb.2 hi
  rw [← exec_rxRow, hrow]
  exact whenReady_selected hr hrow

/-- A frame's first `MAX_PAYLOAD` bytes are stored, the next one overflows, and what follows is dropped. -/
theorem rxBytes_overlong {s : State} {p rest : Text} {b : Byte} (n : Nat) (hr : s.ready = true)
    (hlen : p.length = s.cfg.maxPayload) (hp : ∀ x ∈ p, x ≠ s.cfg.startMarker ∧ x ≠ s.cfg.endMarker)
    (hb : b ≠ s.cfg.startMarker ∧ b ≠ s.cfg.endMarker) (hrest : ∀ x ∈ rest, x ≠ s.cfg.startMarker) :
    rxBytes (s.cfg.startMarker :: (p ++ b :: rest)) n s =
      (.next (s.openFrame.store p).countOverflow.settle, n) := by
  have hfull : (s.openFrame.store p).rxIndex = s.cfg.maxPayload := (Nat.zero_add p.length).trans hlen
  calc rxBytes (s.cfg.startMarker :: (p ++ b :: rest)) n s
      = rxBytes (p ++ b :: rest) n s.openFrame := rxBytes_cons_of_next _ n (rxByte_startMarker hr) rfl
    _ = rxBytes (b :: rest) n (s.openFrame.store p) :=
        rxBytes_data (s := s.openFrame) _ n hr nofun hp hfull.le
    _ = rxBytes rest n (s.openFrame.store p).countOverflow.settle :=
        rxBytes_cons_of_next rest n (rxByte_overflow (s := s.openFrame.store p) hr nofun hb hfull) rfl
    _ = (.next (s.openFrame.store p).countOverflow.settle, n) := rxBytes_drop n hr rfl hrest

/-- Settles O17: by the run, its last byte the one that overflows; the bytes before it stand in RXBUF. -/
theorem overlongRunOverflowsOnce : Obligations.OverlongRunOverflowsOnce := by
  intro s run rest hr hrun hmarkers hrest
  obtain rfl | ⟨p, b, rfl⟩ := List.eq_nil_or_concat' run
  · cases hrun
  have hlen : p.length = s.cfg.maxPayload := by simpa using hrun
  obtain ⟨hp, hb⟩ := List.forall_mem_append.mp hmarkers
  refine ⟨storeText s.rxBuf 0 p, ?_, fun hwf => ⟨wf_storeText p hwf 0, fun a x ha hx => ?_, fun a ha => ?_⟩⟩
  · rw [List.append_assoc, List.singleton_append,
      rxBytes_overlong 0 hr hlen hp (hb b (List.mem_singleton_self b)) hrest]
    rfl
  · rw [List.getElem?_append_left (hlen ▸ ha)] at hx
    simpa only [Nat.zero_add] using read_storeText hwf 0 hx
  · exact read_storeText_above p (by omega)

end Sys2Proof.Machine
end

section
/-!
SUPPORT. The drained byte source (spec 43 R173): its bytes complete, and the count is that of the responses which say
that a command was queued (40 R108).
-/

namespace Sys2Proof.Machine

/-! ### One byte queues one command or none -/

/-- An enqueue changes `newest_id`, which is how R173 sees it (R158). -/
theorem succId_ne_self (n : Word16) : succId n ≠ n := by
  unfold succId
  split <;> bv_omega

theorem queuedResponses_append (c : Config) (o o' : List Output) :
    queuedResponses c (o ++ o') = queuedResponses c o + queuedResponses c o' := by
  simp only [queuedResponses, responsesOf, List.filter_append, List.length_append]
  omega

theorem queuedResponses_singleton (c : Config) (k : Kind) :
    queuedResponses c [.tx (responseFrame c k)] = if k = .ok ∨ k = .errBufferFull then 1 else 0 := by
  cases k <;> simp [queuedResponses, responsesOf]

/-- Between `s` and `t` one command was queued and answered with `OK` or `ERR:BUFFER_FULL`, or none was. -/
def QueuedAtMostOne (s t : State) : Prop :=
  ∃ new, t.output = s.output ++ new ∧
    queuedResponses s.cfg new = if t.newestId = s.newestId then 0 else 1

theorem queuedAtMostOne_of_silent {s t : State} (ho : t.output = s.output) (hid : t.newestId = s.newestId) :
    QueuedAtMostOne s t :=
  ⟨[], by rw [ho, List.append_nil], by rw [if_pos hid]; rfl⟩

/-- A completed frame queues its command and says so, or answers its decode error (R108, R109). -/
theorem queuedAtMostOne_finishFrame (r : Payload) (s : State) : QueuedAtMostOne s (finishFrame r s) := by
  obtain ⟨m, -, -, h⟩ | ⟨m, -, -, h⟩ | ⟨-, h⟩ | ⟨-, h⟩ := finishFrame_cases r s <;>
    refine ⟨[.tx (responseFrame s.cfg _)], by rw [h]; rfl, ?_⟩ <;>
    simp [h, queuedResponses_singleton, succId_ne_self]

theorem queuedAtMostOne_of_rxByte {b : Byte} {s t : State} (h : rxByte b s = .next t) : QueuedAtMostOne s t := by
  obtain ⟨-, ⟨-, -, rfl⟩ | ⟨-, -, rfl⟩ | ⟨-, -, rfl⟩ | ⟨-, -, -, hend⟩ | ⟨-, -, -, -, rfl⟩ |
    ⟨-, -, -, -, rfl⟩⟩ := rxByte_next h
  case inr.inr.inr.inl =>
    obtain ⟨-, -, -, u, rfl, rfl⟩ := execRxEnd_next.mp hend
    exact queuedAtMostOne_finishFrame _ _
  all_goals exact queuedAtMostOne_of_silent rfl rfl

/-! ### The drain -/

/-- Between events every sequence of received bytes completes, and its count grows by the commands it queued. -/
theorem rxBytes_completes {s : State} (hr : s.ready = true) (hs : s.Inv) (bytes : Text) (n : Nat) :
    ∃ t new, rxBytes bytes n s = (.next t, n + queuedResponses s.cfg new) ∧ t.output = s.output ++ new := by
  induction bytes generalizing s n with
  | nil => exact ⟨s, [], rfl, (List.append_nil _).symm⟩
  | cons b bytes ih =>
    obtain ⟨u, hu⟩ := rxByte_completes hr (Nat.lt_succ_of_le hs.indexLe) b
    have hsame := sameSetup_of_rxByte hu
    have hready : u.ready = true := by rw [State.ready, hsame.cfg, hsame.initialised]; exact hr
    obtain ⟨new, hout, hcount⟩ := queuedAtMostOne_of_rxByte hu
    obtain ⟨t, more, ht, hmore⟩ := ih hready (inv_rxByte hs hu) (if u.newestId = s.newestId then n else n + 1)
    refine ⟨t, new ++ more, ?_, by rw [hmore, hout, List.append_assoc]⟩
    simp only [rxBytes, hu, ht, queuedResponses_append, hcount, hsame.cfg]
    split <;> simp [Nat.add_assoc]

/-- Settles O44: the bytes of the source complete with their count, and leave the emptied source alone. -/
theorem pollingDrainsTheSource : Obligations.PollingDrainsTheSource := by
  intro s hr hs
  have htaken : State.Inv { s with source := [] } := inv_congr hs rfl rfl rfl rfl rfl rfl rfl rfl
  obtain ⟨t, new, hrun, hout⟩ := rxBytes_completes (s := { s with source := [] }) hr htaken s.source 0
  have ht : (rxBytes s.source 0 { s with source := [] }).1 = .next t := by rw [hrun]
  have hcount : (rxBytes s.source 0 { s with source := [] }).2 = queuedResponses s.cfg new := by
    rw [hrun, Nat.zero_add]
  refine ⟨t, new, ht, (sameSetup_of_rxBytes ht).source, hout, ?_⟩
  exact execProcessAvailableInput_next.mpr ⟨hr, t, ht, by rw [hcount]; rfl⟩

end Sys2Proof.Machine
end

section
/-!
SUPPORT. The decode of a payload (spec 41 R120 to R142): which code and parameter substring it has, the rows
with one number or none, and the classifier on a NaN.
-/

namespace Sys2Proof.Machine

/-! ### The code of a payload (R121 to R124) -/

theorem decodeMove_ne_unrecognizedCommand (c : Config) (tail : Text) :
    decodeMove c tail ≠ .unrecognizedCommand := by
  unfold decodeMove
  split
  · nofun
  · split <;> nofun

theorem decodeSpeed_ne_unrecognizedCommand (c : Config) (code : Code) (action : Action) (tail : Text) :
    decodeSpeed c code action tail ≠ .unrecognizedCommand := by
  unfold decodeSpeed
  split <;> nofun

/-- Only the code `unknown` is answered with `UnrecognizedCommand` (R123, R142). -/
theorem decodePayload_eq_unrecognizedCommand {c : Config} {p : Text} :
    decodePayload c p = .unrecognizedCommand ↔ (splitPayload c p).1 = .unknown := by
  unfold decodePayload
  obtain ⟨code, tail⟩ := splitPayload c p
  cases code
  case mv => simpa using decodeMove_ne_unrecognizedCommand c tail
  case unknown => simp
  case st | gt => simp [decodeBare]
  all_goals simpa using decodeSpeed_ne_unrecognizedCommand c _ _ tail

/-- A payload has the code `unknown` if it is too short (R122) or if its pair matches no code (R123). -/
theorem splitPayload_eq_unknown {c : Config} {p : Text} :
    (splitPayload c p).1 = .unknown ↔ (skipWs c p).length < 2 ∨
      ∃ c1 c2 rest, skipWs c p = c1 :: c2 :: rest ∧ lookupCode c1 c2 = .unknown := by
  unfold splitPayload
  match skipWs c p with
  | [] => simp
  | [_] => simp
  | c1 :: c2 :: rest => simp

/-- The separator behind the code belongs to neither the code nor the parameter substring (R124). -/
theorem skipSepCode_eq {c : Config} {rest tail : Text}
    (h : rest = c.sepCode :: tail ∨ (rest.head? ≠ some c.sepCode ∧ rest = tail)) :
    skipSepCode c rest = tail := by
  obtain rfl | ⟨hne, rfl⟩ := h
  · exact skipSepCode_sep c tail
  · exact skipSepCode_of_ne hne

/-- Settles O24: by the code and the parameter substring that the payload splits into. -/
theorem unrecognizedDecidedByCode : Obligations.UnrecognizedDecidedByCode := by
  refine ⟨fun c p => decodePayload_eq_unrecognizedCommand.trans splitPayload_eq_unknown, ?_⟩
  intro c p white rest tail c1 c2 hp hwhite hfirst hrest
  have hsplit : splitPayload c p = (lookupCode c1 c2, tail) := by
    rw [hp, splitPayload_white hwhite hfirst, skipSepCode_eq hrest]
  rw [decodeCmd, decodePayload, hsplit]
  cases lookupCode c1 c2 <;> exact ⟨rfl, rfl⟩

/-! ### The rows with one number or none -/

/-- Settles O20: neither row looks at its tail. -/
theorem bareCommandsMeaning : Obligations.BareCommandsMeaning := fun _ _ hs =>
  ⟨whenReady_of_ready hs _, whenReady_of_ready hs _⟩

/-- With a maximum of one the scan ends behind its first number, whatever stands there (R136, R137). -/
theorem tokenize_one {c : Config} {text rest : Text} {v : F64} (h : skipWs c text ≠ [])
    (hn : numParse c (skipWs c text) = some (v, rest)) : tokenize c 1 text = some [v] := by
  by_cases hr : ∃ more, skipWs c rest = c.sepParam :: more
  · obtain ⟨more, hr⟩ := hr
    rw [tokenize_of_separator 0 h hn hr, tokenize_zero, Option.map_some]
  · exact tokenize_of_no_separator 0 h hn (not_exists.mp hr)

/-- A scan of one number is accepted (R129 to R132). -/
theorem decodeSpeed_of_tokenize {c : Config} {tail : Text} {v : F64} (h : tokenize c 1 tail = some [v])
    (code : Code) (action : Action) : decodeSpeed c code action tail = .ok ⟨0, code, action, [v]⟩ := by
  rw [decodeSpeed, h]
  rfl

theorem decodeSpeed_of_number {c : Config} {tail rest : Text} {v : F64} (h : skipWs c tail ≠ [])
    (hn : numParse c (skipWs c tail) = some (v, rest)) (code : Code) (action : Action) :
    decodeSpeed c code action tail = .ok ⟨0, code, action, [v]⟩ :=
  decodeSpeed_of_tokenize (tokenize_one h hn) code action

theorem decodeSpeed_of_empty {c : Config} {tail : Text} (h : skipWs c tail = []) (code : Code)
    (action : Action) : decodeSpeed c code action tail = .ok ⟨0, code, action, [c.defaultSpeed]⟩ := by
  rw [decodeSpeed, tokenize_of_skipWs_nil 0 h]
  rfl

theorem decodeSpeed_of_no_number {c : Config} {tail : Text} (h : skipWs c tail ≠ [])
    (hn : numParse c (skipWs c tail) = none) (code : Code) (action : Action) :
    decodeSpeed c code action tail = .invalidParams := by
  rw [decodeSpeed, tokenize_of_no_number 0 h hn]

/-- In a ready session each of the four rows finishes the frame with its decoded tail. -/
theorem exec_speed_of_ready {s : State} {tail : Text} {i : Instr} {code : Code} {action : Action}
    (hs : s.ready = true)
    (hi : (i, code, action) ∈ [(Instr.sf tail, Code.sf, Action.moveForward),
      (.sb tail, .sb, .moveBackwards), (.sl tail, .sl, .moveLeft), (.sr tail, .sr, .moveRight)]) :
    exec i s = .next (finishFrame (decodeSpeed s.cfg code action tail) s) := by
  simp only [List.mem_cons, List.not_mem_nil, or_false, Prod.mk.injEq] at hi
  obtain ⟨rfl, rfl, rfl⟩ | ⟨rfl, rfl, rfl⟩ | ⟨rfl, rfl, rfl⟩ | ⟨rfl, rfl, rfl⟩ := hi <;>
    exact whenReady_of_ready hs _

/-- Settles O21: by the three cases of the tail. -/
theorem speedCommandsMeaning : Obligations.SpeedCommandsMeaning := by
  intro s tail i code action hs hi
  rw [exec_speed_of_ready hs hi]
  refine ⟨fun h => ?_, fun h hn => ?_, fun v rest h hn => ?_⟩
  · rw [decodeSpeed_of_empty h]
  · rw [decodeSpeed_of_no_number h hn]
  · rw [decodeSpeed_of_number h hn]

/-! ### The classifier on a NaN (R135) -/

theorem f64Eq_of_nan {a b : F64} (h : f64IsNan a = true ∨ f64IsNan b = true) : f64Eq a b = false := by
  obtain h | h := h <;> simp [f64Eq, h]

theorem f64Lt_of_nan {a b : F64} (h : f64IsNan a = true ∨ f64IsNan b = true) : f64Lt a b = false := by
  obtain h | h := h <;> simp [f64Lt, h]

/-- Settles O27: every test of the classifier compares each operand, so one with a NaN is false. -/
theorem classifierOnNan : Obligations.ClassifierOnNan := by
  intro l r h
  obtain h | h := h <;>
    simp [classify, f64Eq_of_nan (.inl h), f64Lt_of_nan (.inl h), f64Lt_of_nan (.inr h)]

end Sys2Proof.Machine
end

section
/-!
SUPPORT. Correct rounding: what it is to be nearest in a grid of values, the rounding of a quotient to a natural
number and to a binary64 magnitude, and the conversion of a decimal number (spec 41 R139).
-/

namespace Sys2Proof.Machine

/-! ### The nearest value of a grid -/

/-- `grid m` is the value of the grid nearest to `x`, a tie to the even index: `x` lies on this side of the
midpoint to either neighbour, or is that midpoint and `m` even. -/
structure IsNearest (grid : ℕ → ℚ) (x : ℚ) (m : ℕ) : Prop where
  above : 2 * x < grid m + grid (m + 1) ∨ (2 * x = grid m + grid (m + 1) ∧ m % 2 = 0)
  below : ∀ k, k + 1 = m → grid k + grid m < 2 * x ∨ (grid k + grid m = 2 * x ∧ m % 2 = 0)

section
variable {grid : ℕ → ℚ} {x : ℚ} {m k : ℕ}

theorem IsNearest.two_mul_le (h : IsNearest grid x m) : 2 * x ≤ grid m + grid (m + 1) :=
  h.above.elim le_of_lt fun h => h.1.le

theorem IsNearest.le_two_mul (h : IsNearest grid x (k + 1)) : grid k + grid (k + 1) ≤ 2 * x :=
  (h.below k rfl).elim le_of_lt fun h => h.1.le

/-- A value of the grid is its own nearest. -/
theorem isNearest_self (hg : StrictMono grid) (m : ℕ) : IsNearest grid (grid m) m where
  above := .inl (by linarith [hg m.lt_succ_self])
  below := by
    rintro k rfl
    exact .inl (by linarith [hg k.lt_succ_self])

/-- A higher value of the grid is at least as far, and as far only if the index is even. -/
theorem IsNearest.of_lt (h : IsNearest grid x m) (hg : StrictMono grid) (hk : m < k) :
    2 * x < grid m + grid k ∨ (2 * x = grid m + grid k ∧ k = m + 1 ∧ m % 2 = 0) := by
  obtain rfl | hlt := (Nat.succ_le_of_lt hk).eq_or_lt
  · exact h.above.imp id fun ⟨heq, heven⟩ => ⟨heq, rfl, heven⟩
  · left
    have hnext : grid (m + 1) < grid k := hg hlt
    obtain habove | ⟨habove, -⟩ := h.above <;> linarith

/-- A lower value of the grid is at least as far, and as far only if the index is even. -/
theorem IsNearest.of_gt (h : IsNearest grid x m) (hg : StrictMono grid) (hk : k < m) :
    grid k + grid m < 2 * x ∨ (grid k + grid m = 2 * x ∧ m = k + 1 ∧ m % 2 = 0) := by
  obtain ⟨j, rfl⟩ := Nat.exists_eq_add_of_lt hk
  obtain rfl | hj := Nat.eq_zero_or_pos j
  · exact (h.below k rfl).imp id fun ⟨heq, heven⟩ => ⟨heq, rfl, heven⟩
  · left
    have hnext : grid k < grid (k + j) := hg (Nat.lt_add_of_pos_right hj)
    obtain hbelow | ⟨hbelow, -⟩ := h.below (k + j) rfl <;> linarith

/-- Rounding does not pass a value of the grid. -/
theorem IsNearest.le_of_le (h : IsNearest grid x m) (hg : StrictMono grid) (hx : x ≤ grid k) : m ≤ k := by
  by_contra hk
  have hlt := hg (not_le.mp hk)
  obtain hbelow | ⟨hbelow, -⟩ := h.of_gt hg (not_le.mp hk) <;> linarith

theorem IsNearest.ge_of_ge (h : IsNearest grid x m) (hg : StrictMono grid) (hx : grid k ≤ x) : k ≤ m := by
  by_contra hk
  have hlt := hg (not_le.mp hk)
  obtain habove | ⟨habove, -⟩ := h.of_lt hg (not_le.mp hk) <;> linarith

/-- No two values are both nearest: of two neighbours at the same distance one is odd. -/
theorem IsNearest.unique (hg : StrictMono grid) (h : IsNearest grid x m) (h' : IsNearest grid x k) :
    m = k := by
  have hle : ∀ {a b}, IsNearest grid x a → IsNearest grid x b → ¬a < b := by
    intro a b ha hb hab
    obtain hx | ⟨hx, hb', haeven⟩ := ha.of_lt hg hab <;>
      obtain hx' | ⟨hx', -, hbeven⟩ := hb.of_gt hg hab
    · linarith
    · linarith
    · linarith
    · omega
  exact le_antisymm (not_lt.mp (hle h' h)) (not_lt.mp (hle h h'))

/-- No value is nearer, and another one is as near only if the index is even. -/
theorem IsNearest.abs_sub_le (h : IsNearest grid x m) (hg : StrictMono grid) (k : ℕ) :
    |grid m - x| ≤ |grid k - x| ∧ (|grid m - x| = |grid k - x| → k ≠ m → m % 2 = 0) := by
  obtain hk | rfl | hk := lt_trichotomy m k
  · have hlt := hg hk
    have hx := h.of_lt hg hk
    have hdist : |grid k - x| = grid k - x := abs_of_nonneg (by obtain hx | ⟨hx, -⟩ := hx <;> linarith)
    rw [hdist]
    obtain hx | ⟨hx, -, heven⟩ := hx
    · have : |grid m - x| < grid k - x := abs_lt.mpr ⟨by linarith, by linarith⟩
      exact ⟨this.le, fun heq => absurd heq this.ne⟩
    · exact ⟨abs_le.mpr ⟨by linarith, by linarith⟩, fun _ _ => heven⟩
  · exact ⟨le_rfl, fun _ hne => absurd rfl hne⟩
  · have hlt := hg hk
    have hx := h.of_gt hg hk
    have hdist : |grid k - x| = x - grid k := by
      rw [abs_sub_comm]
      exact abs_of_nonneg (by obtain hx | ⟨hx, -⟩ := hx <;> linarith)
    rw [hdist]
    obtain hx | ⟨hx, -, heven⟩ := hx
    · have : |grid m - x| < x - grid k := abs_lt.mpr ⟨by linarith, by linarith⟩
      exact ⟨this.le, fun heq => absurd heq this.ne⟩
    · exact ⟨abs_le.mpr ⟨by linarith, by linarith⟩, fun _ _ => heven⟩

end

/-! ### Rounding to a natural number -/

/-- The natural numbers as a grid. -/
def natGrid (n : ℕ) : ℚ := n

theorem natGrid_strictMono : StrictMono natGrid := Nat.strictMono_cast

/-- `roundHalfEven` answers the nearest natural number. -/
theorem isNearest_roundHalfEven {num den : ℕ} (hd : 0 < den) :
    IsNearest natGrid (num / den) (roundHalfEven num den) := by
  obtain ⟨habove, hbelow, heven⟩ := roundHalfEven_spec (num := num) hd
  generalize roundHalfEven num den = q at *
  have hdQ : (0 : ℚ) < den := Nat.cast_pos.mpr hd
  constructor
  · simp only [natGrid, ← mul_div_assoc, div_lt_iff₀ hdQ, div_eq_iff hdQ.ne']
    obtain hlt | heq := habove.lt_or_eq
    · left
      calc (2 * num : ℚ) = (2 * num : ℕ) := by push_cast; rfl
        _ < ((2 * q + 1) * den : ℕ) := Nat.cast_lt.mpr hlt
        _ = (q + (q + 1 : ℕ)) * den := by push_cast; ring
    · right
      refine ⟨?_, heven (.inl heq)⟩
      calc (2 * num : ℚ) = (2 * num : ℕ) := by push_cast; rfl
        _ = ((2 * q + 1) * den : ℕ) := by rw [heq]
        _ = (q + (q + 1 : ℕ)) * den := by push_cast; ring
  · rintro k rfl
    simp only [natGrid, ← mul_div_assoc, lt_div_iff₀ hdQ, eq_div_iff hdQ.ne']
    obtain hlt | heq := hbelow.lt_or_eq
    · left
      have : (2 * (k + 1 : ℕ) * den : ℚ) < 2 * num + den := by exact_mod_cast hlt
      push_cast at this ⊢
      linarith
    · right
      refine ⟨?_, heven (.inr heq)⟩
      have : (2 * (k + 1 : ℕ) * den : ℚ) = 2 * num + den := by exact_mod_cast heq
      push_cast at this ⊢
      linarith

/-! ### Rounding to a magnitude field -/

/-- A significand of up to 53 bits, at the spacing of its binade or at the subnormal one, and its magnitude
field: the formula of `roundRat`. -/
theorem magValue_scaled {k q : ℕ} (hq : q ≤ 2 ^ 53) (hk : k = 0 ∨ 2 ^ 52 ≤ q) :
    magValue (k * 2 ^ 52 + q) = q * (2 : ℚ) ^ ((k : ℤ) - 1074) := by
  obtain hlt | hge := Nat.lt_or_ge q (2 ^ 52)
  · obtain rfl : k = 0 := hk.resolve_right (not_le.mpr hlt)
    rw [Nat.zero_mul, Nat.zero_add, magValue_subnormal hlt.le]
    rfl
  · obtain ⟨f, rfl⟩ := Nat.exists_eq_add_of_le hge
    have hfield : k * 2 ^ 52 + (2 ^ 52 + f) = (k + 1) * 2 ^ 52 + f := by ring
    have hexp : ((k + 1 : ℕ) : ℤ) - 1075 = k - 1074 := by push_cast; ring
    rw [hfield, magValue_normal k.succ_pos (by omega), hexp]
    push_cast
    rfl

/-- A number of the binade `k`, or below the normal ones for `k = 0`, is rounded by rounding its significand. -/
theorem isNearest_magValue {x y : ℚ} {k q : ℕ} (hx : x = y * (2 : ℚ) ^ ((k : ℤ) - 1074))
    (hlow : k = 0 ∨ 2 ^ 52 ≤ y) (hhigh : y < 2 ^ 53) (hq : IsNearest natGrid y q) :
    IsNearest magValue x (k * 2 ^ 52 + q) := by
  have hu : (0 : ℚ) < (2 : ℚ) ^ ((k : ℤ) - 1074) := zpow_pos two_pos _
  generalize hdef : (2 : ℚ) ^ ((k : ℤ) - 1074) = u at hx hu
  have hqle : q ≤ 2 ^ 53 := hq.le_of_le natGrid_strictMono (by exact_mod_cast hhigh.le)
  have hqge : k = 0 ∨ 2 ^ 52 ≤ q :=
    hlow.imp id fun hy => hq.ge_of_ge natGrid_strictMono (by exact_mod_cast hy)
  have hm : magValue (k * 2 ^ 52 + q) = q * u := by rw [magValue_scaled hqle hqge, hdef]
  have heven : q % 2 = 0 → (k * 2 ^ 52 + q) % 2 = 0 := by omega
  constructor
  · obtain hlt | rfl := hqle.lt_or_eq
    · have hnext : magValue (k * 2 ^ 52 + q + 1) = (q + 1 : ℕ) * u := by
        rw [add_assoc, magValue_scaled hlt (hqge.imp id (by omega)), hdef]
      have hmid : magValue (k * 2 ^ 52 + q) + magValue (k * 2 ^ 52 + q + 1) = (q + (q + 1 : ℕ)) * u := by
        rw [hm, hnext]; ring
      rw [hmid, hx, ← mul_assoc]
      exact hq.above.imp (fun h => mul_lt_mul_of_pos_right h hu) fun ⟨h, he⟩ => ⟨by rw [h]; rfl, heven he⟩
    · left
      have hnext := magValue_lt_succ (k * 2 ^ 52 + 2 ^ 53)
      have hlt : x < magValue (k * 2 ^ 52 + 2 ^ 53) := by
        rw [hm, hx]
        exact mul_lt_mul_of_pos_right (by exact_mod_cast hhigh) hu
      linarith
  · intro j hj
    by_cases hinner : k = 0 ∨ 2 ^ 52 < q
    · obtain ⟨p, rfl⟩ : ∃ p, q = p + 1 := ⟨q - 1, by omega⟩
      obtain rfl : j = k * 2 ^ 52 + p := by omega
      have hprev : magValue (k * 2 ^ 52 + p) = p * u := by
        rw [magValue_scaled (by omega) (hinner.imp id (by omega)), hdef]
      have hmid : magValue (k * 2 ^ 52 + p) + magValue (k * 2 ^ 52 + (p + 1)) = (p + (p + 1 : ℕ)) * u := by
        rw [hm, hprev]; ring
      rw [hmid, hx, ← mul_assoc]
      exact (hq.below p rfl).imp (fun h => mul_lt_mul_of_pos_right h hu)
        fun ⟨h, he⟩ => ⟨by rw [← h]; rfl, heven he⟩
    · left
      obtain ⟨hk, hqlt⟩ := not_or.mp hinner
      obtain rfl : q = 2 ^ 52 := by omega
      have hprev := magValue_lt_succ j
      rw [hj] at hprev
      have hle : magValue (k * 2 ^ 52 + 2 ^ 52) ≤ x := by
        rw [hm, hx]
        exact mul_le_mul_of_nonneg_right (by exact_mod_cast hlow.resolve_left hk) hu.le
      linarith

/-- A power of two with an integer exponent, as the two sides of a fraction carry it. -/
theorem two_zpow_eq_div (k : ℤ) : (2 : ℚ) ^ k = (2 ^ k.toNat : ℕ) / (2 ^ (-k).toNat : ℕ) := by
  have hk : k = (k.toNat : ℤ) - ((-k).toNat : ℤ) := by omega
  conv_lhs => rw [hk, zpow_sub₀ two_ne_zero, zpow_natCast, zpow_natCast]
  push_cast
  rfl

/-- `ratExponent` answers the exponent of the leading bit. -/
theorem ratExponent_spec {num den : ℕ} (hn : 0 < num) (hd : 0 < den) :
    (2 : ℚ) ^ ratExponent num den ≤ num / den ∧ (num / den : ℚ) < 2 ^ (ratExponent num den + 1) := by
  have hdQ : (0 : ℚ) < den := Nat.cast_pos.mpr hd
  have hnum : ((2 : ℚ) ^ (num.log2 : ℤ) ≤ num) ∧ (num : ℚ) < 2 ^ ((num.log2 : ℤ) + 1) :=
    ⟨by exact_mod_cast Nat.log2_self_le hn.ne', by exact_mod_cast Nat.lt_log2_self⟩
  have hden : ((2 : ℚ) ^ (den.log2 : ℤ) ≤ den) ∧ (den : ℚ) < 2 ^ ((den.log2 : ℤ) + 1) :=
    ⟨by exact_mod_cast Nat.log2_self_le hd.ne', by exact_mod_cast Nat.lt_log2_self⟩
  have htest : den * 2 ^ ((num.log2 : ℤ) - den.log2).toNat ≤ num * 2 ^ (-((num.log2 : ℤ) - den.log2)).toNat ↔
      (2 : ℚ) ^ ((num.log2 : ℤ) - den.log2) ≤ num / den := by
    rw [two_zpow_eq_div, div_le_div_iff₀ (by positivity) hdQ, mul_comm den]
    exact_mod_cast Iff.rfl
  unfold ratExponent
  simp only [htest]
  split_ifs with h
  · refine ⟨h, ?_⟩
    rw [div_lt_iff₀ hdQ]
    calc (num : ℚ) < 2 ^ ((num.log2 : ℤ) + 1) := hnum.2
      _ = 2 ^ ((num.log2 : ℤ) - den.log2 + 1) * 2 ^ (den.log2 : ℤ) := by
          rw [← zpow_add₀ two_ne_zero]; ring_nf
      _ ≤ 2 ^ ((num.log2 : ℤ) - den.log2 + 1) * den :=
          mul_le_mul_of_nonneg_left hden.1 (zpow_pos two_pos _).le
  · rw [sub_add_cancel]
    refine ⟨?_, not_le.mp h⟩
    rw [le_div_iff₀ hdQ]
    calc (2 : ℚ) ^ ((num.log2 : ℤ) - den.log2 - 1) * den
        ≤ 2 ^ ((num.log2 : ℤ) - den.log2 - 1) * 2 ^ ((den.log2 : ℤ) + 1) :=
          mul_le_mul_of_nonneg_left hden.2.le (zpow_pos two_pos _).le
      _ = 2 ^ (num.log2 : ℤ) := by rw [← zpow_add₀ two_ne_zero]; ring_nf
      _ ≤ num := hnum.1

/-- `roundRat` answers the field of the nearest value, or that of infinity if the nearest is beyond (R139). -/
theorem roundRat_spec {num den : ℕ} (hn : 0 < num) (hd : 0 < den) :
    ∃ m, IsNearest magValue (num / den) m ∧ roundRat num den = min infMag m := by
  obtain ⟨hlow, hhigh⟩ := ratExponent_spec hn hd
  unfold roundRat
  generalize ratExponent num den = e at *
  generalize hshift : min (52 - e) 1074 = shift
  have hk : (((1074 - shift).toNat : ℕ) : ℤ) - 1074 = -shift := by omega
  refine ⟨_, isNearest_magValue (y := num / den * 2 ^ shift) ?_ ?_ ?_ ?_, rfl⟩
  · rw [hk, mul_assoc, ← zpow_add₀ two_ne_zero, add_neg_cancel, zpow_zero, mul_one]
  · by_cases he : shift = 1074
    · exact .inl (by omega)
    · right
      calc (2 : ℚ) ^ 52 = 2 ^ e * 2 ^ shift := by
            rw [← zpow_add₀ two_ne_zero, show e + shift = (52 : ℕ) by omega, zpow_natCast]
        _ ≤ num / den * 2 ^ shift := mul_le_mul_of_nonneg_right hlow (zpow_pos two_pos _).le
  · calc (num / den * 2 ^ shift : ℚ) < 2 ^ (e + 1) * 2 ^ shift :=
          mul_lt_mul_of_pos_right hhigh (zpow_pos two_pos _)
      _ = 2 ^ (e + 1 + shift) := (zpow_add₀ two_ne_zero _ _).symm
      _ ≤ 2 ^ ((53 : ℕ) : ℤ) := zpow_le_zpow_right₀ one_le_two (by omega)
      _ = 2 ^ 53 := zpow_natCast _ _
  · have hy : (num / den * 2 ^ shift : ℚ) = (num * 2 ^ shift.toNat : ℕ) / (den * 2 ^ (-shift).toNat : ℕ) := by
      rw [two_zpow_eq_div, div_mul_div_comm]
      push_cast
      rfl
    rw [hy]
    exact isNearest_roundHalfEven (by positivity)

/-! ### The ends of the range (R139) -/

theorem magValue_one : magValue 1 = 2 ^ (-1074 : ℤ) := by
  rw [magValue_subnormal (by norm_num), Nat.cast_one, one_mul]

/-- Infinity's field would stand for `2 ^ 1024`. -/
theorem magValue_infMag : magValue infMag = 2 ^ 1024 :=
  calc magValue infMag = (2 ^ 52 + (0 : ℕ)) * (2 : ℚ) ^ (((2047 : ℕ) : ℤ) - 1075) :=
        magValue_normal (e := 2047) (f := 0) (by norm_num) (by norm_num)
    _ = 2 ^ 52 * 2 ^ 972 := by rw [Nat.cast_zero, add_zero]; rfl
    _ = 2 ^ 1024 := (pow_add 2 52 972).symm

/-- The midpoint of the largest finite value and `2 ^ 1024`. -/
theorem magValue_infMag_midpoint :
    magValue (infMag - 1) + magValue infMag = 2 * (2 ^ 1024 - 2 ^ 970) := by
  have hlargest : magValue (infMag - 1) = (2 ^ 53 - 1) * 2 ^ 971 :=
    calc magValue (infMag - 1) = (2 ^ 52 + (2 ^ 52 - 1 : ℕ)) * (2 : ℚ) ^ (((2046 : ℕ) : ℤ) - 1075) :=
          magValue_normal (e := 2046) (f := 2 ^ 52 - 1) (by norm_num) (by norm_num)
      _ = (2 ^ 53 - 1) * 2 ^ 971 := by congr 1; norm_num
  have htop : (2 : ℚ) ^ 1024 = 2 ^ 53 * (2 * 2 ^ 970) := by rw [← pow_succ', ← pow_add]
  have hunit : (2 : ℚ) ^ 971 = 2 * 2 ^ 970 := pow_succ' 2 970
  rw [hlargest, magValue_infMag, htop, hunit]
  generalize (2 : ℚ) ^ 970 = u
  ring

/-- The nearest is finite exactly below the midpoint: infinity's field is even, so the midpoint goes there. -/
theorem IsNearest.lt_infMag_iff {x : ℚ} {m : ℕ} (h : IsNearest magValue x m) :
    m < infMag ↔ x < 2 ^ 1024 - 2 ^ 970 := by
  have hmid := magValue_infMag_midpoint
  generalize (2 : ℚ) ^ 1024 - 2 ^ 970 = limit at *
  have hpred : infMag - 1 < infMag := by decide
  constructor
  · intro hm
    have hle : magValue m ≤ magValue (infMag - 1) := magValue_strictMono.monotone (Nat.le_sub_one_of_lt hm)
    obtain hx | ⟨-, hnext, heven⟩ := h.of_lt magValue_strictMono hm
    · linarith
    · have hodd : infMag % 2 = 0 := by decide
      omega
  · intro hx
    by_contra hm
    have hle : magValue infMag ≤ magValue m := magValue_strictMono.monotone (not_lt.mp hm)
    obtain hx' | ⟨hx', -⟩ := h.of_gt magValue_strictMono (hpred.trans_le (not_lt.mp hm)) <;> linarith

/-- From half the smallest subnormal down the nearest is zero. -/
theorem IsNearest.eq_zero {x : ℚ} {m : ℕ} (h : IsNearest magValue x m) (hx : x ≤ 2 ^ (-1075 : ℤ)) :
    m = 0 := by
  by_contra hm
  have hhalf : (2 : ℚ) * 2 ^ (-1075 : ℤ) = magValue 1 := by
    rw [magValue_one, mul_comm, ← zpow_add_one₀ two_ne_zero]
    rfl
  have hle : magValue 1 ≤ magValue m := magValue_strictMono.monotone (Nat.pos_of_ne_zero hm)
  obtain hx' | ⟨-, rfl, heven⟩ := h.of_gt magValue_strictMono (Nat.pos_of_ne_zero hm)
  · rw [magValue_zero] at hx'
    linarith
  · cases heven

/-! ### The conversion of a decimal number (R139) -/

/-- A decimal number is at least as large as its leading bit and three bits for each power of ten say. -/
theorem two_pow_le_decimal {digits n : ℕ} (hd : digits ≠ 0) :
    2 ^ (digits.log2 + 3 * n) ≤ digits * 10 ^ n := by
  rw [pow_add, pow_mul]
  exact Nat.mul_le_mul (Nat.log2_self_le hd) (Nat.pow_le_pow_left (by norm_num) n)

/-- A decimal fraction is below what its leading bit and three bits for each power of ten say. -/
theorem decimal_mul_two_pow_le (digits n : ℕ) :
    digits * 2 ^ (3 * n) ≤ 2 ^ (digits.log2 + 1) * 10 ^ n := by
  rw [pow_mul]
  exact Nat.mul_le_mul Nat.lt_log2_self.le (Nat.pow_le_pow_left (by norm_num) n)

/-- The first shortcut of the conversion: such a number is beyond the finite ones. -/
theorem IsNearest.infMag_le {digits n m : ℕ} (h : IsNearest magValue (digits * 10 ^ n) m) (hd : digits ≠ 0)
    (htest : 1024 ≤ digits.log2 + 3 * n) : infMag ≤ m := by
  refine h.ge_of_ge magValue_strictMono ?_
  rw [magValue_infMag]
  calc (2 : ℚ) ^ 1024 ≤ 2 ^ (digits.log2 + 3 * n) := pow_le_pow_right₀ one_le_two htest
    _ ≤ digits * 10 ^ n := by exact_mod_cast two_pow_le_decimal hd

/-- The second one: such a number is at most half the smallest subnormal. -/
theorem decimal_le_of_log2 {digits n : ℕ} (htest : digits.log2 + 1076 ≤ 3 * n) :
    (digits / 10 ^ n : ℚ) ≤ 2 ^ (-1075 : ℤ) := by
  have hle : (digits * 2 ^ (3 * n) : ℚ) ≤ 2 ^ (digits.log2 + 1) * 10 ^ n := by
    exact_mod_cast decimal_mul_two_pow_le digits n
  have hexp : ((digits.log2 + 1 : ℕ) : ℤ) ≤ -1075 + (3 * n : ℕ) := by push_cast; omega
  rw [div_le_iff₀ (by positivity)]
  refine le_of_mul_le_mul_right ?_ (by positivity : (0 : ℚ) < 2 ^ (3 * n))
  calc (digits * 2 ^ (3 * n) : ℚ) ≤ 2 ^ (digits.log2 + 1) * 10 ^ n := hle
    _ ≤ 2 ^ (-1075 + (3 * n : ℕ) : ℤ) * 10 ^ n := by
        rw [← zpow_natCast]
        exact mul_le_mul_of_nonneg_right (zpow_le_zpow_right₀ one_le_two hexp) (by positivity)
    _ = 2 ^ (-1075 : ℤ) * 10 ^ n * 2 ^ (3 * n) := by
        rw [zpow_add₀ two_ne_zero, zpow_natCast]
        ring

/-- The conversion answers the nearest value, or infinity if the nearest is beyond, with the number's sign. -/
theorem f64OfDecimal_spec (neg : Bool) (digits : ℕ) (exp : ℤ) :
    ∃ m, IsNearest magValue (digits * 10 ^ exp) m ∧ f64OfDecimal neg digits exp = f64Of neg (min infMag m) := by
  by_cases hd : digits = 0
  · exact ⟨0, by simpa [hd] using isNearest_self magValue_strictMono 0, by simp [f64OfDecimal, hd]⟩
  by_cases hexp : 0 ≤ exp
  · lift exp to ℕ using hexp with n
    have hx : (digits * 10 ^ (n : ℤ) : ℚ) = (digits * 10 ^ n : ℕ) / (1 : ℕ) := by simp
    obtain ⟨m, hm, hround⟩ := roundRat_spec (num := digits * 10 ^ n) (by positivity) one_pos
    rw [← hx] at hm
    refine ⟨m, hm, ?_⟩
    rw [f64OfDecimal, if_neg hd, if_pos n.cast_nonneg, Int.toNat_natCast, hround, ite_eq_right_iff]
    intro htest
    rw [zpow_natCast] at hm
    rw [min_eq_left (hm.infMag_le hd (by omega))]
  · obtain ⟨n, rfl⟩ : ∃ n : ℕ, exp = -n := ⟨(-exp).toNat, by omega⟩
    have hx : (digits * 10 ^ (-(n : ℤ)) : ℚ) = digits / (10 ^ n : ℕ) := by
      rw [zpow_neg, zpow_natCast, Nat.cast_pow, div_eq_mul_inv]
      rfl
    obtain ⟨m, hm, hround⟩ := roundRat_spec (Nat.pos_of_ne_zero hd) (by positivity : 0 < 10 ^ n)
    rw [← hx] at hm
    refine ⟨m, hm, ?_⟩
    rw [f64OfDecimal, if_neg hd, if_neg hexp, neg_neg, Int.toNat_natCast, hround, ite_eq_right_iff]
    intro htest
    have hzero : m = 0 := hm.eq_zero <| by
      rw [hx, Nat.cast_pow]
      exact decimal_le_of_log2 (by omega)
    rw [hzero]
    rfl

/-! ### Sign and magnitude of a converted number -/

theorem toNat_f64Of {neg : Bool} {mag : ℕ} (h : mag ≤ infMag) :
    (f64Of neg mag).toNat = (if neg then 2 ^ 63 else 0) + mag := by
  have hlt : infMag < 2 ^ 63 := by decide
  rw [f64Of, BitVec.toNat_ofNat, Nat.mod_eq_of_lt]
  split <;> omega

theorem f64Mag_f64Of {neg : Bool} {mag : ℕ} (h : mag ≤ infMag) : f64Mag (f64Of neg mag) = mag := by
  have hlt : infMag < 2 ^ 63 := by decide
  rw [f64Mag, toNat_f64Of h]
  split <;> omega

theorem f64Neg_f64Of {neg : Bool} {mag : ℕ} (h : mag ≤ infMag) : f64Neg (f64Of neg mag) = neg := by
  have hlt : infMag < 2 ^ 63 := by decide
  rw [f64Neg, BitVec.msb_eq_decide, toNat_f64Of h]
  cases neg <;> simp
  omega

/-- A pattern is its sign and its magnitude. -/
theorem f64Of_neg_mag (v : F64) : f64Of (f64Neg v) (f64Mag v) = v := by
  have hlt := v.isLt
  refine BitVec.eq_of_toNat_eq ?_
  rw [f64Of, f64Neg, f64Mag, BitVec.msb_eq_decide, BitVec.toNat_ofNat]
  simp only [decide_eq_true_iff]
  split <;> omega

/-- The sign is the number's (R139). -/
@[simp] theorem f64Neg_f64OfDecimal (neg : Bool) (digits : ℕ) (exp : ℤ) :
    f64Neg (f64OfDecimal neg digits exp) = neg := by
  obtain ⟨m, -, hv⟩ := f64OfDecimal_spec neg digits exp
  rw [hv, f64Neg_f64Of (min_le_left _ _)]

/-- The magnitude is the nearest to the number's, or infinity's (R139). -/
theorem f64Mag_f64OfDecimal (neg : Bool) (digits : ℕ) (exp : ℤ) :
    ∃ m, IsNearest magValue (digits * 10 ^ exp) m ∧ f64Mag (f64OfDecimal neg digits exp) = min infMag m := by
  obtain ⟨m, hm, hv⟩ := f64OfDecimal_spec neg digits exp
  exact ⟨m, hm, by rw [hv, f64Mag_f64Of (min_le_left _ _)]⟩

/-- A conversion is no NaN (R139). -/
@[simp] theorem f64IsNan_f64OfDecimal (neg : Bool) (digits : ℕ) (exp : ℤ) :
    f64IsNan (f64OfDecimal neg digits exp) = false := by
  obtain ⟨m, -, hmag⟩ := f64Mag_f64OfDecimal neg digits exp
  simp [f64IsNan, hmag]

/-- A conversion is finite exactly if the number is below the midpoint beyond the largest finite value. -/
theorem f64IsFinite_f64OfDecimal {neg : Bool} {digits : ℕ} {exp : ℤ} :
    f64IsFinite (f64OfDecimal neg digits exp) = true ↔ (digits * 10 ^ exp : ℚ) < 2 ^ 1024 - 2 ^ 970 := by
  obtain ⟨m, hm, hmag⟩ := f64Mag_f64OfDecimal neg digits exp
  rw [f64IsFinite, decide_eq_true_iff, hmag, min_lt_iff, hm.lt_infMag_iff]
  exact or_iff_right (lt_irrefl _)

/-- A finite conversion has the magnitude nearest to the number's. -/
theorem isNearest_f64OfDecimal {neg : Bool} {digits : ℕ} {exp : ℤ}
    (h : f64IsFinite (f64OfDecimal neg digits exp) = true) :
    IsNearest magValue (digits * 10 ^ exp) (f64Mag (f64OfDecimal neg digits exp)) := by
  obtain ⟨m, hm, hmag⟩ := f64Mag_f64OfDecimal neg digits exp
  rw [f64IsFinite, decide_eq_true_iff] at h
  have hmm : min infMag m = m := min_eq_right (by omega)
  rwa [hmag, hmm]

/-- Half the smallest subnormal is far below the overflow, so the conversion of a number up to it is zero. -/
theorem f64Mag_f64OfDecimal_of_small {neg : Bool} {digits : ℕ} {exp : ℤ}
    (h : (digits * 10 ^ exp : ℚ) ≤ 2 ^ (-1075 : ℤ)) : f64Mag (f64OfDecimal neg digits exp) = 0 := by
  obtain ⟨m, hm, hmag⟩ := f64Mag_f64OfDecimal neg digits exp
  rw [hmag, hm.eq_zero h, Nat.min_zero]

/-- The magnitude that is nearest to a number, with the number's sign, is its conversion. -/
theorem f64OfDecimal_eq_of_isNearest {v : F64} {digits : ℕ} {exp : ℤ} (hfin : f64IsFinite v = true)
    (h : IsNearest magValue (digits * 10 ^ exp) (f64Mag v)) : f64OfDecimal (f64Neg v) digits exp = v := by
  obtain ⟨m, hm, hv⟩ := f64OfDecimal_spec (f64Neg v) digits exp
  obtain rfl := h.unique magValue_strictMono hm
  rw [f64IsFinite, decide_eq_true_iff] at hfin
  rw [hv, min_eq_right hfin.le, f64Of_neg_mag]

/-! ### Distances of signed values -/

/-- A sign as a factor. -/
def signFactor (neg : Bool) : ℚ := if neg then -1 else 1

theorem f64Value_eq (v : F64) : f64Value v = signFactor (f64Neg v) * magValue (f64Mag v) := rfl

theorem decimalValue_eq (neg : Bool) (digits : ℕ) (exp : ℤ) :
    decimalValue neg digits exp = signFactor neg * (digits * 10 ^ exp) := rfl

theorem abs_signFactor_mul (neg : Bool) (a : ℚ) : |signFactor neg * a| = |a| := by
  cases neg <;> simp [signFactor]

/-- Under one sign the distance is that of the magnitudes. -/
theorem abs_sub_signFactor (neg : Bool) (a b : ℚ) : |signFactor neg * a - signFactor neg * b| = |a - b| := by
  rw [← mul_sub, abs_signFactor_mul]

/-- Under opposite signs it is their sum. -/
theorem abs_sub_signFactor_of_ne {neg neg' : Bool} (h : neg ≠ neg') {a b : ℚ} (ha : 0 ≤ a) (hb : 0 ≤ b) :
    |signFactor neg * a - signFactor neg' * b| = a + b := by
  have hflip : signFactor neg' = -signFactor neg := by
    cases neg <;> cases neg' <;> simp [signFactor] at h ⊢
  rw [hflip, neg_mul, sub_neg_eq_add, ← mul_add, abs_signFactor_mul, abs_of_nonneg (add_nonneg ha hb)]

theorem magValue_nonneg (mag : ℕ) : 0 ≤ magValue mag :=
  magValue_zero.symm.le.trans (magValue_strictMono.monotone mag.zero_le)

/-- No pattern of either sign is nearer than the one with the nearest magnitude and the number's sign, and one of
another value is as near only if the magnitude is even. -/
theorem abs_f64Value_sub_le {v : F64} {a : ℚ} (ha : 0 ≤ a) (h : IsNearest magValue a (f64Mag v)) (y : F64) :
    |f64Value v - signFactor (f64Neg v) * a| ≤ |f64Value y - signFactor (f64Neg v) * a| ∧
      (|f64Value v - signFactor (f64Neg v) * a| = |f64Value y - signFactor (f64Neg v) * a| →
        f64Value v ≠ f64Value y → f64Mag v % 2 = 0) := by
  rw [f64Value_eq, abs_sub_signFactor, f64Value_eq]
  by_cases hsign : f64Neg y = f64Neg v
  · rw [hsign, abs_sub_signFactor]
    obtain ⟨hle, htie⟩ := h.abs_sub_le magValue_strictMono (f64Mag y)
    exact ⟨hle, fun heq hne => htie heq fun hmag => hne (by rw [hmag])⟩
  · have hzero : |magValue 0 - a| = a := by rw [magValue_zero, zero_sub, abs_neg, abs_of_nonneg ha]
    have hy := magValue_nonneg (f64Mag y)
    rw [abs_sub_signFactor_of_ne hsign hy ha]
    obtain ⟨hle, htie⟩ := h.abs_sub_le magValue_strictMono 0
    rw [hzero] at hle htie
    refine ⟨by linarith, fun heq _ => ?_⟩
    by_cases hm : 0 = f64Mag v
    · rw [← hm]
    · exact htie (by linarith) hm

/-- The clauses of R139 on the value of a conversion. -/
theorem f64OfDecimal_isNearest {neg : Bool} {digits : ℕ} {exp : ℤ} {v : F64} {x : ℚ}
    (hv : v = f64OfDecimal neg digits exp) (hx : x = decimalValue neg digits exp) :
    f64Neg v = neg ∧ f64IsNan v = false ∧ (f64IsFinite v = true ↔ |x| < 2 ^ 1024 - 2 ^ 970) ∧
      (|x| ≤ (2 : ℚ) ^ (-1075 : ℤ) → f64Mag v = 0) ∧
      ∀ y : F64, f64IsFinite v = true → f64IsFinite y = true →
        |f64Value v - x| ≤ |f64Value y - x| ∧
        (|f64Value v - x| = |f64Value y - x| → f64Value v ≠ f64Value y → f64Mag v % 2 = 0) := by
  have ha : (0 : ℚ) ≤ digits * 10 ^ exp := by positivity
  have habs : |x| = digits * 10 ^ exp := by rw [hx, decimalValue_eq, abs_signFactor_mul, abs_of_nonneg ha]
  rw [habs]
  subst hv
  refine ⟨f64Neg_f64OfDecimal _ _ _, f64IsNan_f64OfDecimal _ _ _, f64IsFinite_f64OfDecimal,
    f64Mag_f64OfDecimal_of_small, fun y hfin _ => ?_⟩
  have h := abs_f64Value_sub_le ha (isNearest_f64OfDecimal hfin) y
  rwa [f64Neg_f64OfDecimal, ← decimalValue_eq, ← hx] at h

end Sys2Proof.Machine
end

section
/-!
SUPPORT. `NUM_PARSE` and the grammar of spec 41 R138: what each part of the scan reads, and that no other reading
of the part goes further.
-/

namespace Sys2Proof.Machine

/-! ### Digits -/

/-- The text does not go on with a digit. -/
def NoDigit (s : Text) : Prop := ∀ b ∈ s.head?, digitVal b = none

theorem noDigit_nil : NoDigit [] := nofun

theorem noDigit_cons {b : Byte} {s : Text} (h : digitVal b = none) : NoDigit (b :: s) := by
  rintro _ ⟨⟩
  exact h

@[simp] theorem allDigits_nil : allDigits [] = true := rfl

@[simp] theorem allDigits_cons {b : Byte} {s : Text} :
    allDigits (b :: s) = true ↔ (digitVal b).isSome = true ∧ allDigits s = true := by
  simp [allDigits]

@[simp] theorem allDigits_append {s t : Text} :
    allDigits (s ++ t) = true ↔ allDigits s = true ∧ allDigits t = true := by
  simp [allDigits]

/-- A digit is neither a point, nor the letter of an exponent, nor a sign (R138). -/
theorem ne_of_digit {b : Byte} (h : (digitVal b).isSome = true) :
    b ≠ 0x2E ∧ (b ≠ 0x65 ∧ b ≠ 0x45) ∧ b ≠ 0x2D ∧ b ≠ 0x2B := by
  refine ⟨?_, ⟨?_, ?_⟩, ?_, ?_⟩ <;> rintro rfl <;> exact absurd h (by decide)

/-- A text that is digits and does not begin with one is empty. -/
theorem eq_nil_of_noDigit {s t : Text} (h : NoDigit (s ++ t)) (hs : allDigits s = true) : s = [] := by
  cases s with
  | nil => rfl
  | cons b s => simp [h b rfl] at hs

/-- Every text is its leading digits and a rest. -/
theorem exists_digits_split (s : Text) :
    ∃ digits rest, s = digits ++ rest ∧ allDigits digits = true ∧ NoDigit rest := by
  induction s with
  | nil => exact ⟨[], [], rfl, rfl, noDigit_nil⟩
  | cons b s ih =>
    match hb : digitVal b with
    | none => exact ⟨[], b :: s, rfl, rfl, noDigit_cons hb⟩
    | some _ =>
      obtain ⟨digits, rest, rfl, hdigits, hrest⟩ := ih
      exact ⟨b :: digits, rest, rfl, by simp [hb, hdigits], hrest⟩

/-- Digits in front of a text are among its leading digits. -/
theorem digits_prefix {digits rest ds t : Text} (h : digits ++ rest = ds ++ t) (hds : allDigits ds = true)
    (hrest : NoDigit rest) : ∃ more, digits = ds ++ more ∧ t = more ++ rest := by
  obtain ⟨more, hds', hrest'⟩ | ⟨more, hdigits, ht⟩ := List.append_eq_append_iff.mp h
  · rw [hds', allDigits_append] at hds
    obtain rfl := eq_nil_of_noDigit (hrest' ▸ hrest) hds.2
    exact ⟨[], by simpa using hds'.symm, by simpa using hrest'.symm⟩
  · exact ⟨more, hdigits, ht⟩

/-- `digit*` is read to its end. -/
theorem scanDigits_append {digits rest : Text} (hd : allDigits digits = true) (hr : NoDigit rest)
    (acc n : ℕ) : scanDigits acc n (digits ++ rest) =
      (digits.foldl (fun k b => 10 * k + (digitVal b).getD 0) acc, n + digits.length, rest) := by
  induction digits generalizing acc n with
  | nil =>
    cases rest with
    | nil => rfl
    | cons b rest => simp [scanDigits, hr b rfl]
  | cons b digits ih =>
    obtain ⟨hb, hd⟩ := allDigits_cons.mp hd
    obtain ⟨d, hb⟩ := Option.isSome_iff_exists.mp hb
    simp [scanDigits, hb, ih hd, Nat.add_assoc, Nat.add_comm 1]

/-! ### The sign -/

/-- The text does not begin with a sign. -/
def NoSign (s : Text) : Prop := ∀ b ∈ s.head?, b ≠ 0x2D ∧ b ≠ 0x2B

/-- `sign?` is read. -/
theorem scanSign_append {sign rest : Text} {neg : Bool} (h : IsSign sign neg) (hr : NoSign rest) :
    scanSign (sign ++ rest) = (neg, rest) := by
  obtain ⟨rfl, rfl | rfl⟩ | ⟨rfl, rfl⟩ := h
  · cases rest with
    | nil => rfl
    | cons b rest =>
      obtain ⟨hminus, hplus⟩ := hr b rfl
      rw [List.nil_append, scanSign, if_neg hminus, if_neg hplus]
  · rfl
  · rfl

/-- What is read as a sign is one. -/
theorem scanSign_spec (s : Text) : ∃ sign, s = sign ++ (scanSign s).2 ∧ IsSign sign (scanSign s).1 := by
  cases s with
  | nil => exact ⟨[], rfl, .inl ⟨rfl, .inl rfl⟩⟩
  | cons b s =>
    simp only [scanSign]
    split_ifs with hminus hplus
    · exact ⟨[0x2D], by rw [hminus]; rfl, .inr ⟨rfl, rfl⟩⟩
    · exact ⟨[0x2B], by rw [hplus]; rfl, .inl ⟨rfl, .inr rfl⟩⟩
    · exact ⟨[], rfl, .inl ⟨rfl, .inl rfl⟩⟩

theorem noSign_of_digits {digits : Text} (hd : allDigits digits = true) (hne : digits ≠ []) (rest : Text) :
    NoSign (digits ++ rest) := by
  obtain ⟨b, digits, rfl⟩ := List.exists_cons_of_ne_nil hne
  rintro _ ⟨⟩
  exact (ne_of_digit (allDigits_cons.mp hd).1).2.2

/-- No mantissa begins with a sign. -/
theorem noSign_of_mantissa {mantissa whole frac : Text} (h : IsMantissa mantissa whole frac) (rest : Text) :
    NoSign (mantissa ++ rest) := by
  obtain ⟨hw, -, ⟨rfl, hne, -⟩ | ⟨rfl, -⟩⟩ := h
  · exact noSign_of_digits hw hne rest
  · cases whole with
    | nil =>
      rintro _ ⟨⟩
      decide
    | cons b whole =>
      rw [List.append_assoc]
      exact noSign_of_digits hw (List.cons_ne_nil b whole) _

/-! ### The mantissa -/

/-- A text has leading digits and no point behind them, or digits, a point and digits. -/
theorem mantissa_cases (s : Text) :
    (∃ whole rest, s = whole ++ rest ∧ allDigits whole = true ∧ NoDigit rest ∧ rest.head? ≠ some 0x2E) ∨
      ∃ whole frac rest, s = whole ++ 0x2E :: (frac ++ rest) ∧ allDigits whole = true ∧
        allDigits frac = true ∧ NoDigit rest := by
  obtain ⟨whole, rest, rfl, hw, hr⟩ := exists_digits_split s
  by_cases hpoint : rest.head? = some 0x2E
  · obtain ⟨after, rfl⟩ := List.head?_eq_some_iff.mp hpoint
    obtain ⟨frac, rest, rfl, hf, hr⟩ := exists_digits_split after
    exact .inr ⟨whole, frac, rest, rfl, hw, hf, hr⟩
  · exact .inl ⟨whole, rest, rfl, hw, hr, hpoint⟩

/-- Without a point the mantissa is the digits. -/
theorem scanMantissa_of_no_point {whole rest : Text} (hw : allDigits whole = true) (hr : NoDigit rest)
    (hp : rest.head? ≠ some 0x2E) :
    scanMantissa (whole ++ rest) = if whole = [] then none else some (digitsValue whole, 0, rest) := by
  rw [scanMantissa, scanDigits_append hw hr]
  cases rest with
  | nil => simp [digitsValue]
  | cons b rest =>
    have hb : b ≠ 0x2E := fun hb => hp (hb ▸ rfl)
    simp only [hb, if_false, Nat.zero_add, List.length_eq_zero_iff]
    rfl

/-- With a point it is the digits on both sides, not both empty. -/
theorem scanMantissa_of_point {whole frac rest : Text} (hw : allDigits whole = true)
    (hf : allDigits frac = true) (hr : NoDigit rest) :
    scanMantissa (whole ++ 0x2E :: (frac ++ rest)) =
      if whole = [] ∧ frac = [] then none else some (digitsValue (whole ++ frac), frac.length, rest) := by
  have hpoint : NoDigit (0x2E :: (frac ++ rest)) := noDigit_cons (by decide)
  simp only [scanMantissa, scanDigits_append hw hpoint, scanDigits_append hf hr, if_true, Nat.zero_add,
    List.length_eq_zero_iff, digitsValue, List.foldl_append]

/-- What is read as a mantissa is one, with its value and its digits behind the point. -/
theorem scanMantissa_spec {s rest : Text} {digits n : ℕ} (h : scanMantissa s = some (digits, n, rest)) :
    ∃ mantissa whole frac, s = mantissa ++ rest ∧ IsMantissa mantissa whole frac ∧
      digits = digitsValue (whole ++ frac) ∧ n = frac.length := by
  obtain ⟨whole, rest', rfl, hw, hr, hp⟩ | ⟨whole, frac, rest', rfl, hw, hf, hr⟩ := mantissa_cases s
  · rw [scanMantissa_of_no_point hw hr hp] at h
    split_ifs at h with hne
    obtain ⟨rfl, rfl, rfl⟩ : digitsValue whole = digits ∧ 0 = n ∧ rest' = rest := by simpa using h
    exact ⟨whole, whole, [], rfl, ⟨hw, rfl, .inl ⟨rfl, hne, rfl⟩⟩, by rw [List.append_nil], rfl⟩
  · rw [scanMantissa_of_point hw hf hr] at h
    split_ifs at h with hne
    obtain ⟨rfl, rfl, rfl⟩ : digitsValue (whole ++ frac) = digits ∧ frac.length = n ∧ rest' = rest := by
      simpa using h
    exact ⟨whole ++ 0x2E :: frac, whole, frac, by simp,
      ⟨hw, hf, .inr ⟨rfl, not_and_or.mp hne⟩⟩, rfl, rfl⟩

/-- The letter of an exponent does not stand in front. -/
def NoExponent (s : Text) : Prop := ∀ b ∈ s.head?, b ≠ 0x65 ∧ b ≠ 0x45

/-- What a shorter reading of digits leaves is longer, and no exponent stands in front of it. -/
theorem noExponent_of_digits {more rest : Text} (h : allDigits more = true) (hne : more ≠ []) :
    NoExponent (more ++ rest) ∧ rest.length < (more ++ rest).length := by
  obtain ⟨b, more, rfl⟩ := List.exists_cons_of_ne_nil hne
  refine ⟨?_, by simp⟩
  rintro _ ⟨⟩
  exact (ne_of_digit (allDigits_cons.mp h).1).2.1

/-- The mantissa of `s` is read as far as `t`, or further where no exponent stands in front of `t`. -/
def ReadsMantissaTo (s t : Text) : Prop :=
  ∃ digits n rest, scanMantissa s = some (digits, n, rest) ∧
    (rest = t ∨ (NoExponent t ∧ rest.length < t.length))

/-- Digits are a mantissa; the reading goes on over further digits and a point. -/
theorem readsMantissaTo_digits {whole : Text} (hw : allDigits whole = true) (hne : whole ≠ []) (t : Text) :
    ReadsMantissaTo (whole ++ t) t := by
  obtain ⟨all, rest, hs, hall, hr, hp⟩ | ⟨all, frac, rest, hs, hall, hfrac, hr⟩ := mantissa_cases (whole ++ t)
  · obtain ⟨more, rfl, rfl⟩ := digits_prefix hs.symm hw hr
    refine ⟨_, _, _, by rw [hs, scanMantissa_of_no_point hall hr hp, if_neg (by simp [hne])], ?_⟩
    by_cases hmore : more = []
    · exact .inl (by rw [hmore, List.nil_append])
    · exact .inr (noExponent_of_digits (allDigits_append.mp hall).2 hmore)
  · obtain ⟨more, rfl, rfl⟩ := digits_prefix hs.symm hw (noDigit_cons (by decide))
    refine ⟨_, _, _, by rw [hs, scanMantissa_of_point hall hfrac hr, if_neg (by simp [hne])], .inr ?_⟩
    have hlen : rest.length < (0x2E :: (frac ++ rest)).length := by simp
    by_cases hmore : more = []
    · rw [hmore, List.nil_append]
      refine ⟨?_, hlen⟩
      rintro _ ⟨⟩
      decide
    · obtain ⟨hno, hlen'⟩ := noExponent_of_digits (allDigits_append.mp hall).2 hmore
      exact ⟨hno, hlen.trans hlen'⟩

/-- Digits with a point among them are a mantissa; the reading goes on over further digits. -/
theorem readsMantissaTo_fraction {whole frac : Text} (hw : allDigits whole = true) (hf : allDigits frac = true)
    (hne : whole ≠ [] ∨ frac ≠ []) (t : Text) : ReadsMantissaTo (whole ++ 0x2E :: (frac ++ t)) t := by
  obtain ⟨more, rest, rfl, hmore, hr⟩ := exists_digits_split t
  have hsome : ¬(whole = [] ∧ frac ++ more = []) := fun ⟨hwn, hfn⟩ =>
    hne.elim (· hwn) (· (List.append_eq_nil_iff.mp hfn).1)
  refine ⟨_, _, _, by
    rw [← List.append_assoc frac, scanMantissa_of_point hw (allDigits_append.mpr ⟨hf, hmore⟩) hr, if_neg hsome], ?_⟩
  by_cases hnil : more = []
  · exact .inl (by rw [hnil, List.nil_append])
  · exact .inr (noExponent_of_digits hmore hnil)

/-- A text that begins with a mantissa is read as far as that, or further where no exponent could follow it. -/
theorem readsMantissaTo_of_isMantissa {mantissa whole frac : Text} (h : IsMantissa mantissa whole frac) (t : Text) :
    ReadsMantissaTo (mantissa ++ t) t := by
  obtain ⟨hw, hf, ⟨rfl, hne, -⟩ | ⟨rfl, hne⟩⟩ := h
  · exact readsMantissaTo_digits hw hne t
  · rw [List.append_assoc]
    exact readsMantissaTo_fraction hw hf hne t

/-! ### The exponent -/

/-- An exponent is read whole where its digits end. -/
theorem scanExponent_append {letter : Byte} {sign digits rest : Text} {neg : Bool}
    (hl : letter = 0x65 ∨ letter = 0x45) (hs : IsSign sign neg) (hd : allDigits digits = true)
    (hne : digits ≠ []) (hr : NoDigit rest) :
    scanExponent (letter :: (sign ++ (digits ++ rest))) =
      (if neg then -(digitsValue digits : ℤ) else (digitsValue digits : ℤ), rest) := by
  simp only [scanExponent, if_pos hl, scanSign_append hs (noSign_of_digits hd hne rest),
    scanDigits_append hd hr, Nat.zero_add, List.length_eq_zero_iff, if_neg hne]
  rfl

theorem scanExponent_of_noExponent {s : Text} (h : NoExponent s) : scanExponent s = (0, s) := by
  cases s with
  | nil => rfl
  | cons b s => rw [scanExponent, if_neg (not_or.mpr (h b rfl))]

/-- A text begins with an exponent whose digits end there, or none is read. -/
theorem exponent_cases (s : Text) :
    (∃ letter sign digits rest neg, s = letter :: (sign ++ (digits ++ rest)) ∧
      (letter = 0x65 ∨ letter = 0x45) ∧ IsSign sign neg ∧ allDigits digits = true ∧ digits ≠ [] ∧ NoDigit rest) ∨
      scanExponent s = (0, s) := by
  match s with
  | [] => exact .inr rfl
  | b :: after =>
    by_cases hl : b = 0x65 ∨ b = 0x45
    · obtain ⟨sign, hafter, hsign⟩ := scanSign_spec after
      obtain ⟨digits, rest, hscan, hd, hr⟩ := exists_digits_split (scanSign after).2
      obtain rfl | hne := eq_or_ne digits []
      · right
        simp only [scanExponent, if_pos hl, hscan, scanDigits_append hd hr, List.length_nil, if_true]
      · exact .inl ⟨b, sign, digits, rest, _, by rw [← hscan, ← hafter], hl, hsign, hd, hne, hr⟩
    · exact .inr (scanExponent_of_noExponent (by rintro _ ⟨⟩; exact not_or.mp hl))

/-- What is read as an exponent is one, with its value. -/
theorem scanExponent_spec (s : Text) :
    ∃ exponent, s = exponent ++ (scanExponent s).2 ∧ IsExponent exponent (scanExponent s).1 := by
  obtain ⟨letter, sign, digits, rest, neg, rfl, hl, hs, hd, hne, hr⟩ | h := exponent_cases s
  · rw [scanExponent_append hl hs hd hne hr]
    exact ⟨letter :: (sign ++ digits), by simp, .inr ⟨letter, sign, digits, neg, rfl, hl, hs, hd, hne, rfl⟩⟩
  · rw [h]
    exact ⟨[], rfl, .inl ⟨rfl, rfl⟩⟩

/-- A text that begins with an exponent is read at least as far as that. -/
theorem scanExponent_of_prefix {exponent : Text} {e : ℤ} (h : IsExponent exponent e) (t : Text) :
    (scanExponent (exponent ++ t)).2.length ≤ t.length := by
  obtain ⟨rfl, -⟩ | ⟨letter, sign, digits, neg, rfl, hl, hs, hd, hne, -⟩ := h
  · obtain ⟨exponent, ht, -⟩ := scanExponent_spec t
    calc (scanExponent t).2.length ≤ (exponent ++ (scanExponent t).2).length := by simp
      _ = t.length := by rw [← ht]
  · obtain ⟨more, rest, rfl, hmore, hr⟩ := exists_digits_split t
    have htext : letter :: (sign ++ digits) ++ (more ++ rest) = letter :: (sign ++ ((digits ++ more) ++ rest)) := by
      simp
    rw [htext, scanExponent_append hl hs (allDigits_append.mpr ⟨hd, hmore⟩) (by simp [hne]) hr]
    simp

/-- Where no exponent can stand none is. -/
theorem eq_nil_of_noExponent {exponent t : Text} {e : ℤ} (h : IsExponent exponent e)
    (hno : NoExponent (exponent ++ t)) : exponent = [] := by
  obtain ⟨rfl, -⟩ | ⟨letter, sign, digits, neg, rfl, hl, -⟩ := h
  · rfl
  · exact absurd hl (not_or.mpr (hno letter rfl))

/-! ### The number -/

/-- The default `NUM_PARSE` by its three parts. -/
theorem numParseDefault_eq (s : Text) :
    numParseDefault s = (scanMantissa (scanSign s).2).map fun r =>
      (f64OfDecimal (scanSign s).1 r.1 ((scanExponent r.2.2).1 - (r.2.1 : ℤ)), (scanExponent r.2.2).2) := by
  unfold numParseDefault
  obtain ⟨neg, s1⟩ := scanSign s
  simp only
  cases scanMantissa s1 <;> rfl

/-- What is read as a number is one, with its conversion as value. -/
theorem numParseDefault_spec {s rest : Text} {v : F64} (h : numParseDefault s = some (v, rest)) :
    ∃ pre neg digits exp, s = pre ++ rest ∧ IsNumber pre neg digits exp ∧ v = f64OfDecimal neg digits exp := by
  rw [numParseDefault_eq, Option.map_eq_some_iff] at h
  obtain ⟨⟨digits, n, rest'⟩, hscan, heq⟩ := h
  obtain ⟨rfl, rfl⟩ := Prod.mk.inj heq
  obtain ⟨sign, hs, hsign⟩ := scanSign_spec s
  obtain ⟨mantissa, whole, frac, hm, hmantissa, rfl, rfl⟩ := scanMantissa_spec hscan
  obtain ⟨exponent, he, hexponent⟩ := scanExponent_spec rest'
  refine ⟨sign ++ mantissa ++ exponent, _, _, _, ?_,
    ⟨sign, mantissa, exponent, whole, frac, _, rfl, hsign, hmantissa, hexponent, rfl, rfl⟩, rfl⟩
  rw [List.append_assoc, ← he, List.append_assoc, ← hm, ← hs]

/-- A text that begins with a number is read at least as far as that. -/
theorem numParseDefault_of_prefix {pre : Text} {neg : Bool} {digits : ℕ} {exp : ℤ}
    (h : IsNumber pre neg digits exp) (t : Text) :
    ∃ v rest, numParseDefault (pre ++ t) = some (v, rest) ∧ rest.length ≤ t.length := by
  obtain ⟨sign, mantissa, exponent, whole, frac, e, rfl, hs, hm, he, -, -⟩ := h
  have hsign : scanSign (sign ++ mantissa ++ exponent ++ t) = (neg, mantissa ++ (exponent ++ t)) := by
    rw [List.append_assoc, List.append_assoc]
    exact scanSign_append hs (noSign_of_mantissa hm _)
  obtain ⟨digits, n, rest, hscan, hrest⟩ := readsMantissaTo_of_isMantissa hm (exponent ++ t)
  rw [numParseDefault_eq, hsign, hscan]
  refine ⟨_, _, rfl, ?_⟩
  obtain rfl | ⟨hno, hlt⟩ := hrest
  · exact scanExponent_of_prefix he t
  · obtain rfl := eq_nil_of_noExponent he hno
    exact (scanExponent_of_prefix (.inl ⟨rfl, rfl⟩) rest).trans hlt.le

/-- Settles O28: the scan reads a number and reads on as far as any number goes, the build's table answers for its
own texts, and the conversion is the nearest value. -/
theorem decimalValueIsNearest : Obligations.DecimalValueIsNearest := by
  refine ⟨fun c s hs => ?_, fun c s => ⟨fun h => by simp [numParse, h], fun v n h => by simp [numParse, h]⟩,
    fun neg digits exp v x => f64OfDecimal_isNearest⟩
  rw [numParse_default hs]
  constructor
  · rintro hnone pre post neg digits exp rfl hnumber
    obtain ⟨v, rest, hread, -⟩ := numParseDefault_of_prefix hnumber post
    rw [hnone] at hread
    cases hread
  · intro v rest hread
    obtain ⟨pre, neg, digits, exp, hpre, hnumber, hv⟩ := numParseDefault_spec hread
    refine ⟨pre, neg, digits, exp, hpre, hnumber, hv, fun pre' post neg' digits' exp' hpre' hnumber' => ?_⟩
    obtain ⟨v', rest', hread', hlen⟩ := numParseDefault_of_prefix hnumber' post
    rw [← hpre', hread] at hread'
    obtain ⟨rfl, rfl⟩ := Prod.mk.inj (Option.some.inj hread')
    have htotal : (pre ++ rest).length = (pre' ++ post).length := by rw [← hpre, ← hpre']
    simp only [List.length_append] at htotal
    omega

end Sys2Proof.Machine
end

section
/-!
SUPPORT. The texts of numbers and their reading back: decimal digits, integers (spec 41 R139), and numbers of tenths
through the fixed-point text of one digit (R143, 44 R193).
-/

namespace Sys2Proof.Machine

/-! ### The digits of a number -/

/-- The text is the digits of the number. -/
structure IsDecimal (n : ℕ) (digits : Text) : Prop where
  allDigits : allDigits digits = true
  ne_nil : digits ≠ []
  value : digitsValue digits = n

theorem isDecimal_digitByte {n : ℕ} (h : n < 10) : IsDecimal n [digitByte n] where
  allDigits := by simp [digitVal_digitByte h]
  ne_nil := List.cons_ne_nil _ _
  value := by simp [digitsValue, digitVal_digitByte h]

/-- The last digit is the remainder. -/
theorem IsDecimal.concat {n : ℕ} {digits : Text} (h : IsDecimal (n / 10) digits) :
    IsDecimal n (digits ++ [digitByte (n % 10)]) where
  allDigits := by simp [h.allDigits, digitVal_digitByte (Nat.mod_lt n (by norm_num : 10 > 0))]
  ne_nil := by simp
  value := by
    have hvalue := h.value
    unfold digitsValue at hvalue ⊢
    rw [List.foldl_append, hvalue, List.foldl_cons, List.foldl_nil,
      digitVal_digitByte (Nat.mod_lt n (by norm_num)), Option.getD_some, Nat.div_add_mod]

/-- With fuel enough `decDigits` writes the digits of the number in front. -/
theorem decDigits_spec {fuel n : ℕ} (h : n < 10 ^ (fuel + 1)) (acc : Text) :
    ∃ digits, decDigits (fuel + 1) n acc = digits ++ acc ∧ IsDecimal n digits := by
  induction fuel generalizing n acc with
  | zero =>
    have hn : n < 10 := by simpa using h
    exact ⟨[digitByte n], if_pos hn, isDecimal_digitByte hn⟩
  | succ fuel ih =>
    by_cases hn : n < 10
    · exact ⟨[digitByte n], if_pos hn, isDecimal_digitByte hn⟩
    · have hdiv : n / 10 < 10 ^ (fuel + 1) := by
        rwa [Nat.div_lt_iff_lt_mul (by norm_num), ← pow_succ]
      obtain ⟨digits, htext, hdigits⟩ := ih hdiv (digitByte (n % 10) :: acc)
      refine ⟨digits ++ [digitByte (n % 10)], ?_, hdigits.concat⟩
      rw [decDigits, if_neg hn, htext, List.append_assoc]
      rfl

/-- The decimal text of a number is its digits. -/
theorem isDecimal_natText (n : ℕ) : IsDecimal n (natText n) := by
  have hfuel : n < 10 ^ (n.log2 + 1) :=
    Nat.lt_log2_self.trans_le (Nat.pow_le_pow_left (by norm_num) _)
  obtain ⟨digits, htext, hdigits⟩ := decDigits_spec hfuel []
  rw [List.append_nil] at htext
  rwa [natText, htext]

/-- The integer part and the `d` fractional digits read back as the number of multiples of `10 ^ -d`. -/
theorem digitsValue_fixed (n d : ℕ) : digitsValue (natText (n / 10 ^ d) ++ fracText d n) = n := by
  have hvalue := (isDecimal_natText (n / 10 ^ d)).value
  unfold digitsValue at hvalue ⊢
  rw [List.foldl_append, hvalue, fracText_foldl, mul_comm, Nat.div_add_mod]

/-! ### Reading a number back (R138) -/

section
variable {sign whole rest : Text} {neg : Bool}

/-- Digits behind a sign are read as their integer. -/
theorem numParseDefault_integer (hs : IsSign sign neg) (hw : allDigits whole = true) (hne : whole ≠ [])
    (hr : NoDigit rest) (hp : rest.head? ≠ some 0x2E) (he : NoExponent rest) :
    numParseDefault (sign ++ (whole ++ rest)) = some (f64OfDecimal neg (digitsValue whole) 0, rest) := by
  rw [numParseDefault_eq, scanSign_append hs (noSign_of_digits hw hne rest), scanMantissa_of_no_point hw hr hp,
    if_neg hne, Option.map_some, scanExponent_of_noExponent he]
  rfl

/-- Digits with a point among them are read as the number of the last one's places. -/
theorem numParseDefault_fraction {frac : Text} (hs : IsSign sign neg) (hw : allDigits whole = true)
    (hne : whole ≠ []) (hf : allDigits frac = true) (hr : NoDigit rest) (he : NoExponent rest) :
    numParseDefault (sign ++ (whole ++ 0x2E :: (frac ++ rest))) =
      some (f64OfDecimal neg (digitsValue (whole ++ frac)) (-(frac.length : ℤ)), rest) := by
  rw [numParseDefault_eq, scanSign_append hs (noSign_of_digits hw hne _), scanMantissa_of_point hw hf hr,
    if_neg fun h => hne h.1, Option.map_some, scanExponent_of_noExponent he, zero_sub]

end

/-! ### Integers up to `2 ^ 53` (R139) -/

/-- An integer of up to 53 bits is a value of the grid: its bits, shifted up, are a significand. -/
theorem exists_magValue_eq_natCast {n : ℕ} (h : n ≤ 2 ^ 53) : ∃ m, magValue m = n := by
  obtain rfl | hn := Nat.eq_zero_or_pos n
  · exact ⟨0, magValue_zero⟩
  obtain ⟨e, he, hlow, hhigh⟩ : ∃ e ≤ 52, 2 ^ 52 ≤ n * 2 ^ (52 - e) ∧ n * 2 ^ (52 - e) ≤ 2 ^ 53 := by
    obtain hlt | rfl := h.lt_or_eq
    · have he : n.log2 ≤ 52 := Nat.lt_succ_iff.mp ((Nat.log2_lt hn.ne').mpr hlt)
      refine ⟨n.log2, he, ?_, ?_⟩
      · calc 2 ^ 52 = 2 ^ n.log2 * 2 ^ (52 - n.log2) := by rw [← pow_add, Nat.add_sub_cancel' he]
          _ ≤ n * 2 ^ (52 - n.log2) := Nat.mul_le_mul_right _ (Nat.log2_self_le hn.ne')
      · calc n * 2 ^ (52 - n.log2) ≤ 2 ^ (n.log2 + 1) * 2 ^ (52 - n.log2) :=
              Nat.mul_le_mul_right _ Nat.lt_log2_self.le
          _ = 2 ^ 53 := by rw [← pow_add]; congr 1; omega
    · exact ⟨52, le_rfl, by norm_num, by norm_num⟩
  refine ⟨(e + 1022) * 2 ^ 52 + n * 2 ^ (52 - e), ?_⟩
  have hexp : ((e + 1022 : ℕ) : ℤ) - 1074 = -((52 - e : ℕ) : ℤ) := by omega
  rw [magValue_scaled hhigh (.inr hlow), hexp, zpow_neg, zpow_natCast, Nat.cast_mul, Nat.cast_pow, Nat.cast_ofNat,
    mul_inv_cancel_right₀ (pow_ne_zero _ two_ne_zero)]

/-- A number that is a value of the grid converts to that value. -/
theorem magValue_f64OfDecimal_of_eq {neg : Bool} {digits m : ℕ} {exp : ℤ}
    (hfin : f64IsFinite (f64OfDecimal neg digits exp) = true) (h : magValue m = digits * 10 ^ exp) :
    magValue (f64Mag (f64OfDecimal neg digits exp)) = digits * 10 ^ exp := by
  have hm := isNearest_self magValue_strictMono m
  rw [h] at hm
  rw [(isNearest_f64OfDecimal hfin).unique magValue_strictMono hm, h]

theorem f64IsFinite_f64OfInt {k : ℤ} (h : k.natAbs ≤ 2 ^ 53) : f64IsFinite (f64OfInt k) = true := by
  refine f64IsFinite_f64OfDecimal.mpr ?_
  have hunit : (2 : ℚ) ^ 971 = 2 ^ 970 + 2 ^ 970 := by rw [pow_succ, mul_two]
  have htop : (2 : ℚ) ^ 971 < 2 ^ 1024 := pow_lt_pow_right₀ one_lt_two (by norm_num)
  have hsmall : (2 : ℚ) ^ 53 ≤ 2 ^ 970 := pow_le_pow_right₀ one_le_two (by norm_num)
  rw [zpow_zero, mul_one, lt_sub_iff_add_lt]
  calc (k.natAbs + 2 ^ 970 : ℚ) ≤ 2 ^ 53 + 2 ^ 970 := add_le_add_left (by exact_mod_cast h) _
    _ ≤ 2 ^ 970 + 2 ^ 970 := add_le_add_left hsmall _
    _ < 2 ^ 1024 := hunit ▸ htop

theorem signFactor_mul_natAbs (k : ℤ) : signFactor (decide (k < 0)) * (k.natAbs : ℚ) = k := by
  rw [Nat.cast_natAbs, Int.cast_abs]
  by_cases hk : k < 0
  · rw [signFactor, decide_eq_true hk, if_pos rfl, neg_one_mul, abs_of_neg (by exact_mod_cast hk), neg_neg]
  · rw [signFactor, decide_eq_false hk, if_neg Bool.false_ne_true, one_mul,
      abs_of_nonneg (by exact_mod_cast not_lt.mp hk)]

theorem f64Value_f64OfInt {k : ℤ} (h : k.natAbs ≤ 2 ^ 53) : f64Value (f64OfInt k) = k := by
  obtain ⟨m, hm⟩ := exists_magValue_eq_natCast h
  have hx : magValue m = k.natAbs * 10 ^ (0 : ℤ) := by rw [hm, zpow_zero, mul_one]
  have hvalue := magValue_f64OfDecimal_of_eq (f64IsFinite_f64OfInt h) hx
  rw [← hx, hm] at hvalue
  rw [f64Value_eq, f64OfInt, f64Neg_f64OfDecimal, hvalue, signFactor_mul_natAbs]

/-- Settles O29: an integer of up to 53 bits is a value of the grid, and its text is a sign and its digits. -/
theorem integersAreExact : Obligations.IntegersAreExact := by
  intro k hk
  refine ⟨f64IsFinite_f64OfInt hk, f64Value_f64OfInt hk, ?_⟩
  have htext := isDecimal_natText k.natAbs
  have hsign : IsSign (if k < 0 then [0x2D] else []) (decide (k < 0)) := by
    by_cases hneg : k < 0
    · simp [IsSign, hneg]
    · simp [IsSign, hneg]
  have h := numParseDefault_integer (rest := []) hsign htext.allDigits htext.ne_nil noDigit_nil nofun nofun
  rwa [List.append_nil, htext.value] at h

end Sys2Proof.Machine
end

section
/-!
SUPPORT. The command text read back (spec 41 R143): numbers of tenths through the fixed-point text of one digit, the
comma-joined parameters through the tokenizer, and the letters through the match of the code.
-/

namespace Sys2Proof.Machine

/-! ### The spacing of the values -/

/-- The step from a magnitude field to the next: the unit in the last place. -/
theorem magValue_succ (mag : ℕ) :
    magValue (mag + 1) = magValue mag + 2 ^ ((max 1 (mag / 2 ^ 52) : ℕ) - 1075 : ℤ) := by
  obtain hlt | hge := Nat.lt_or_ge mag (2 ^ 52)
  · rw [magValue_subnormal hlt.le, magValue_subnormal hlt, Nat.div_eq_of_lt hlt]
    rw [Nat.cast_succ, add_mul, one_mul]
    rfl
  · obtain ⟨e, f, he, hf, rfl⟩ : ∃ e f, 0 < e ∧ f < 2 ^ 52 ∧ mag = e * 2 ^ 52 + f :=
      ⟨mag / 2 ^ 52, mag % 2 ^ 52, by omega, by omega, by omega⟩
    have hdiv : max 1 ((e * 2 ^ 52 + f) / 2 ^ 52) = e := by omega
    rw [add_assoc, magValue_normal he hf.le, magValue_normal he hf, hdiv]
    push_cast
    ring

/-- The magnitude field of `2 ^ 49`. -/
def mag49 : ℕ := 1072 * 2 ^ 52

theorem magValue_mag49 : magValue mag49 = (2 ^ 49 : ℕ) :=
  calc magValue mag49 = (2 ^ 52 + (0 : ℕ)) * (2 : ℚ) ^ (((1072 : ℕ) : ℤ) - 1075) :=
        magValue_normal (e := 1072) (f := 0) (by norm_num) (by norm_num)
    _ = (2 ^ 49 : ℕ) := by norm_num

/-- Below `2 ^ 49` the values stand closer than a tenth. -/
theorem magValue_succ_le {mag : ℕ} (h : mag < mag49) : magValue (mag + 1) ≤ magValue mag + 1 / 16 := by
  have hexp : ((max 1 (mag / 2 ^ 52) : ℕ) - 1075 : ℤ) ≤ -4 := by
    unfold mag49 at h
    omega
  have hstep : (2 : ℚ) ^ ((max 1 (mag / 2 ^ 52) : ℕ) - 1075 : ℤ) ≤ 2 ^ (-4 : ℤ) :=
    zpow_le_zpow_right₀ one_le_two hexp
  rw [magValue_succ]
  norm_num at hstep ⊢
  exact hstep

/-- From `2 ^ 49` on they stand wider apart than a tenth. -/
theorem magValue_succ_ge {mag : ℕ} (h : mag49 ≤ mag) : magValue mag + 1 / 8 ≤ magValue (mag + 1) := by
  have hexp : (-3 : ℤ) ≤ (max 1 (mag / 2 ^ 52) : ℕ) - 1075 := by
    unfold mag49 at h
    omega
  have hstep : (2 : ℚ) ^ (-3 : ℤ) ≤ 2 ^ ((max 1 (mag / 2 ^ 52) : ℕ) - 1075 : ℤ) :=
    zpow_le_zpow_right₀ one_le_two hexp
  rw [magValue_succ]
  norm_num at hstep ⊢
  exact hstep

/-! ### Tenths -/

/-- A natural number closer than one half is the nearest. -/
theorem isNearest_natGrid_of_lt {y : ℚ} {n : ℕ} (h : |n - y| < 1 / 2) : IsNearest natGrid y n := by
  obtain ⟨hlow, hhigh⟩ := abs_lt.mp h
  constructor
  · left
    simp only [natGrid]
    push_cast
    linarith
  · rintro k rfl
    left
    simp only [natGrid]
    push_cast at hlow hhigh ⊢
    linarith

/-- The nearest natural number is no further than one half. -/
theorem IsNearest.abs_natGrid_le {y : ℚ} {n : ℕ} (hy : 0 ≤ y) (h : IsNearest natGrid y n) : |n - y| ≤ 1 / 2 := by
  have habove := h.two_mul_le
  simp only [natGrid] at habove
  push_cast at habove
  refine abs_le.mpr ⟨by linarith, ?_⟩
  cases n with
  | zero => simpa using (by linarith : -y ≤ 1 / 2)
  | succ k =>
    have hbelow := h.le_two_mul
    simp only [natGrid] at hbelow
    push_cast at hbelow ⊢
    linarith

/-- Printing a value that is nearest to a number of tenths, with one fractional digit, gives a number of tenths that
the same value is nearest to. Below `2 ^ 49` it is the first number, as the value is closer to it than half a tenth;
from there on it is closer to the value than half the spacing. -/
theorem isNearest_printed_tenths {tenths n m : ℕ} (ht : IsNearest magValue (tenths / 10) m)
    (hn : IsNearest natGrid (magValue m * 10) n) : IsNearest magValue (n / 10) m := by
  obtain hlt | rfl | hgt := lt_trichotomy m mag49
  · have habove := ht.two_mul_le
    have hstep := magValue_succ_le hlt
    have hbelow : magValue m - 1 / 32 ≤ tenths / 10 := by
      cases m with
      | zero =>
        have htenths : (0 : ℚ) ≤ tenths / 10 := by positivity
        rw [magValue_zero]
        linarith
      | succ k => linarith [ht.le_two_mul, magValue_succ_le (k.lt_succ_self.trans hlt)]
    have hclose : |tenths - magValue m * 10| < 1 / 2 := abs_lt.mpr ⟨by linarith, by linarith⟩
    rwa [hn.unique natGrid_strictMono (isNearest_natGrid_of_lt hclose)]
  · have hexact : magValue mag49 * 10 = natGrid (2 ^ 49 * 10) := by
      rw [magValue_mag49, natGrid, Nat.cast_mul]
      rfl
    rw [hexact] at hn
    obtain rfl := hn.unique natGrid_strictMono (isNearest_self natGrid_strictMono _)
    have hvalue : ((2 ^ 49 * 10 : ℕ) / 10 : ℚ) = magValue mag49 := by
      rw [magValue_mag49, Nat.cast_mul]
      exact mul_div_cancel_right₀ _ (by norm_num)
    rw [hvalue]
    exact isNearest_self magValue_strictMono mag49
  · have hclose := abs_le.mp (hn.abs_natGrid_le (mul_nonneg (magValue_nonneg m) (by norm_num)))
    constructor
    · left
      linarith [magValue_succ_ge hgt.le]
    · rintro k rfl
      left
      linarith [magValue_succ_ge (Nat.lt_succ_iff.mp hgt)]

/-! ### The fixed-point text of one digit (R193) -/

/-- The fraction that `FMT_FIXED` rounds is the magnitude in multiples of `10 ^ -d`. -/
theorem scaledExact_div (mag d : ℕ) :
    ((scaledExact mag d).1 / (scaledExact mag d).2 : ℚ) = magValue mag * 10 ^ d := by
  rw [magValue, two_zpow_eq_div, scaledExact]
  push_cast
  ring

/-- Off the build's table `FMT_FIXED` prints the nearest multiple of `10 ^ -d`. -/
theorem isNearest_fixedMultiple {c : Config} {v : F64} {d : ℕ} (h : (v, d) ∉ c.fmtFixedOther) :
    IsNearest natGrid (magValue (f64Mag v) * 10 ^ d) (fixedMultiple c v d) := by
  rw [fixedMultiple_default h, ← scaledExact_div]
  exact isNearest_roundHalfEven (pow_pos (by norm_num) _)

/-- The text of a number with a fixed-point text: its sign, its integer part, a point and `d` digits. -/
theorem fmtFixed_eq_some {c : Config} {v : F64} {d : ℕ} {t : Text} (h : fmtFixed c v d = some t) :
    f64IsFinite v = true ∧ ∃ sign, IsSign sign (f64Neg v) ∧
      t = sign ++ (natText (fixedMultiple c v d / 10 ^ d) ++ 0x2E :: fracText d (fixedMultiple c v d)) := by
  have hfin : f64IsFinite v = true := by rw [← fmtFixed_isSome (c := c) (d := d), h]; rfl
  refine ⟨hfin, ?_⟩
  simp only [fmtFixed, hfin, if_true, Option.some.injEq] at h
  cases hneg : f64Neg v with
  | false => exact ⟨[], .inl ⟨rfl, .inl rfl⟩, by rw [← h, hneg]; rfl⟩
  | true => exact ⟨[0x2D], .inr ⟨rfl, rfl⟩, by rw [← h, hneg]; rfl⟩

/-- The fixed-point text is read as its number of multiples of `10 ^ -d`. -/
theorem numParseDefault_fmtFixed {c : Config} {v : F64} {d : ℕ} {t rest : Text} (h : fmtFixed c v d = some t)
    (hr : NoDigit rest) (he : NoExponent rest) :
    numParseDefault (t ++ rest) = some (f64OfDecimal (f64Neg v) (fixedMultiple c v d) (-d), rest) := by
  obtain ⟨-, sign, hsign, rfl⟩ := fmtFixed_eq_some h
  have hwhole := isDecimal_natText (fixedMultiple c v d / 10 ^ d)
  have hread := numParseDefault_fraction hsign hwhole.allDigits hwhole.ne_nil
    (fracText_allDigits d (fixedMultiple c v d)) hr he
  rw [digitsValue_fixed, fracText_length] at hread
  rw [← hread]
  simp only [List.append_assoc, List.cons_append]

/-- A value that a number of tenths converts to (R143). -/
def IsTenths (v : F64) : Prop := ∃ (neg : Bool) (tenths : ℕ), v = f64OfDecimal neg tenths (-1)

/-- The tenths that such a value is printed as convert to it again. -/
theorem f64OfDecimal_fixedMultiple {c : Config} {v : F64} (hv : IsTenths v) (hfin : f64IsFinite v = true)
    (hc : (v, 1) ∉ c.fmtFixedOther) : f64OfDecimal (f64Neg v) (fixedMultiple c v 1) (-1) = v := by
  obtain ⟨neg, tenths, htenths⟩ := hv
  have ht : IsNearest magValue (tenths / 10) (f64Mag v) := by
    have h := isNearest_f64OfDecimal (htenths ▸ hfin)
    rwa [← htenths, zpow_neg_one, ← div_eq_mul_inv] at h
  have hn := isNearest_fixedMultiple hc
  rw [pow_one] at hn
  refine f64OfDecimal_eq_of_isNearest hfin ?_
  rw [zpow_neg_one, ← div_eq_mul_inv]
  exact isNearest_printed_tenths ht hn

/-! ### Parameters (R187, R136) -/

/-- No byte that begins a fixed-point text is whitespace. -/
theorem isWs_reference_of_digit : ∀ b : Byte, (digitVal b).isSome = true → isWs Config.reference b = false := by
  decide

/-- Nothing is skipped in front of a fixed-point text. -/
theorem skipWs_fmtFixed {v : F64} {d : ℕ} {t : Text} (h : fmtFixed Config.reference v d = some t) (rest : Text) :
    skipWs Config.reference (t ++ rest) = t ++ rest ∧ t ++ rest ≠ [] := by
  obtain ⟨-, sign, hsign, rfl⟩ := fmtFixed_eq_some h
  have hwhole := isDecimal_natText (fixedMultiple Config.reference v d / 10 ^ d)
  obtain ⟨first, more, hfirst⟩ := List.exists_cons_of_ne_nil hwhole.ne_nil
  have hdigit := hwhole.allDigits
  rw [hfirst, allDigits_cons] at hdigit
  rw [hfirst]
  refine ⟨?_, by simp⟩
  obtain ⟨-, rfl | rfl⟩ | ⟨-, rfl⟩ := hsign
  · exact skipWs_white (white := []) nofun (isWs_reference_of_digit first hdigit.1)
  · exact skipWs_white (white := []) nofun (by decide)
  · exact skipWs_white (white := []) nofun (by decide)

/-- A parameter's text is read as the parameter, up to what follows. -/
theorem numParse_parameter {v : F64} {t rest : Text} (hv : IsTenths v)
    (h : fmtFixed Config.reference v 1 = some t) (hr : NoDigit rest) (he : NoExponent rest) :
    numParse Config.reference (t ++ rest) = some (v, rest) := by
  have hread := numParseDefault_fmtFixed h hr he
  rw [Nat.cast_one, f64OfDecimal_fixedMultiple hv (fmtFixed_eq_some h).1 List.not_mem_nil] at hread
  rw [numParse_default rfl, hread]

/-- The parameters of a command text, each printed and set off from the next by a separator. -/
theorem paramsText_cons {c : Config} {v : F64} {vs : List F64} {ps : Text} (h : paramsText c (v :: vs) = some ps) :
    ∃ t, fmtFixed c v 1 = some t ∧ ((vs = [] ∧ ps = t) ∨
      ∃ ts, vs ≠ [] ∧ paramsText c vs = some ts ∧ ps = t ++ c.sepParam :: ts) := by
  unfold paramsText at h
  match ht : fmtFixed c v 1 with
  | none => simp [ht] at h
  | some t =>
    refine ⟨t, rfl, ?_⟩
    cases vs with
    | nil => exact .inl ⟨rfl, by simpa [ht, eq_comm] using h⟩
    | cons w ws =>
      match hts : paramsText c (w :: ws) with
      | none => simp [ht, hts] at h
      | some ts => exact .inr ⟨ts, List.cons_ne_nil _ _, rfl, by simpa [ht, hts, eq_comm] using h⟩

/-- The tokenizer takes the parameters of a command text apart again. -/
theorem tokenize_paramsText {max : ℕ} {vs : List F64} {ps : Text} (hvs : ∀ v ∈ vs, IsTenths v) (hne : vs ≠ [])
    (hlen : vs.length ≤ max) (h : paramsText Config.reference vs = some ps) :
    tokenize Config.reference max ps = some vs := by
  induction vs generalizing max ps with
  | nil => exact absurd rfl hne
  | cons v vs ih =>
    obtain ⟨max, rfl⟩ : ∃ k, max = k + 1 := ⟨max - 1, by simp at hlen; omega⟩
    obtain ⟨hv, hvs⟩ := List.forall_mem_cons.mp hvs
    obtain ⟨t, ht, ⟨rfl, rfl⟩ | ⟨ts, hmore, hts, rfl⟩⟩ := paramsText_cons h
    · have hread := numParse_parameter hv ht noDigit_nil nofun
      obtain ⟨hskip, hnil⟩ := skipWs_fmtFixed ht []
      rw [List.append_nil] at hread hskip hnil
      exact tokenize_of_no_separator max (by rwa [hskip]) (by rwa [hskip]) (by simp [skipWs])
    · have hread := numParse_parameter hv ht (rest := Config.reference.sepParam :: ts) (noDigit_cons (by decide))
        (by rintro _ ⟨⟩; decide)
      obtain ⟨hskip, hnil⟩ := skipWs_fmtFixed ht (Config.reference.sepParam :: ts)
      rw [tokenize_of_separator max (by rwa [hskip]) (by rwa [hskip]) rfl, ih hvs hmore (by simpa using hlen) hts]
      rfl

/-! ### Commands -/

theorem fitted_eq_text {t t' : Text} {size : ℕ} (h : fitted t size = .text t') : t' = t := by
  unfold fitted at h
  split at h <;> cases h
  rfl

/-- A command that is encoded has letters, and its text is the letters alone or with its parameters (R187). -/
theorem encodeCommandText_eq_text {c : Config} {m : Command} {size : ℕ} {t : Text}
    (h : encodeCommandText c m size = .text t) :
    ∃ code, letters m.code = some code ∧
      ((m.params = [] ∧ t = c.startMarker :: (code ++ [c.endMarker])) ∨
        ∃ ps, m.params ≠ [] ∧ paramsText c m.params = some ps ∧
          t = c.startMarker :: (code ++ c.sepCode :: ps ++ [c.endMarker])) := by
  unfold encodeCommandText at h
  split at h
  · cases h
  match hl : letters m.code with
  | none => simp [hl] at h
  | some code =>
    refine ⟨code, rfl, ?_⟩
    match hp : m.params with
    | [] => exact .inl ⟨rfl, fitted_eq_text (by simpa [hl, hp] using h)⟩
    | v :: vs =>
      match hps : paramsText c (v :: vs) with
      | none => simp [hl, hp, hps] at h
      | some ps =>
        exact .inr ⟨ps, List.cons_ne_nil _ _, rfl, fitted_eq_text (by simpa [hl, hp, hps] using h)⟩

/-- The letters of a code are matched as the code, and are no whitespace (R81). -/
theorem lookupCode_letters {code : Code} {text : Text} (h : letters code = some text) :
    ∃ c1 c2, text = [c1, c2] ∧ lookupCode c1 c2 = code ∧ isWs Config.reference c1 = false := by
  cases code
  case unknown => cases h
  all_goals
    obtain rfl := Option.some.inj h
    exact ⟨_, _, rfl, by decide, by decide⟩

/-- A text of a code's letters, alone or with a parameter substring behind the separator, splits into the two. -/
theorem splitPayload_letters {code : Code} {text : Text} (h : letters code = some text) :
    splitPayload Config.reference text = (code, []) ∧
      ∀ ps, splitPayload Config.reference (text ++ Config.reference.sepCode :: ps) = (code, ps) := by
  obtain ⟨c1, c2, rfl, rfl, hws⟩ := lookupCode_letters h
  refine ⟨splitPayload_white (white := []) nofun hws, fun ps => ?_⟩
  rw [← skipSepCode_sep Config.reference ps]
  exact splitPayload_white (white := []) nofun hws

/-- The text between the markers of an encoded command splits into the command's code and a substring that the
tokenizer takes apart into its parameters. -/
theorem splitPayload_of_encodeCommandText {m : Command} {size : ℕ} {t : Text} (hm : ∀ v ∈ m.params, IsTenths v)
    (h : encodeCommandText Config.reference m size = .text t) :
    ∃ p tail, t = 0x53 :: (p ++ [0x45]) ∧ splitPayload Config.reference p = (m.code, tail) ∧
      ∀ max, m.params ≠ [] → m.params.length ≤ max → tokenize Config.reference max tail = some m.params := by
  obtain ⟨code, hcode, ⟨hnil, rfl⟩ | ⟨ps, -, hps, rfl⟩⟩ := encodeCommandText_eq_text h
  · exact ⟨code, [], rfl, (splitPayload_letters hcode).1, fun _ hne => absurd hnil hne⟩
  · exact ⟨code ++ Config.reference.sepCode :: ps, ps, rfl, (splitPayload_letters hcode).2 ps,
      fun _ hne hlen => tokenize_paramsText hm hne hlen hps⟩

/-- Settles O32: the text splits into the code and the parameters, and each row accepts those of its shape. -/
theorem commandTextRoundTrip : Obligations.CommandTextRoundTrip := by
  rintro ⟨id, code, action, params⟩ size t htenths hshape henc
  obtain ⟨p, tail, ht, hsplit, htokens⟩ := splitPayload_of_encodeCommandText htenths henc
  refine ⟨p, ht, ?_⟩
  rw [decodePayload, hsplit]
  cases code
  case mv =>
    dsimp only at hshape
    obtain ⟨htwo, hten, rfl⟩ := hshape
    match params, htwo with
    | l :: r :: more, _ => exact decodeMove_of_two (htokens 10 (List.cons_ne_nil _ _) hten)
  case st | gt =>
    obtain ⟨rfl, rfl⟩ := hshape
    rfl
  case sf | sb | sl | sr =>
    obtain ⟨hone, rfl⟩ := hshape
    obtain ⟨v, rfl⟩ := List.length_eq_one_iff.mp hone
    exact decodeSpeed_of_tokenize (htokens 1 (List.cons_ne_nil _ _) le_rfl) _ _
  case unknown => exact hshape.elim

end Sys2Proof.Machine
end

section
/-!
SUPPORT. The operations of the Command Buffer one by one (spec 42 R150 to R158), and what a run of enqueues leaves in
it (R159).
-/

namespace Sys2Proof.Machine

/-! ### The successor of an id (R158) -/

theorem succId_toNat_of_lt {n : Word16} (h : n.toNat < 65535) : (succId n).toNat = n.toNat + 1 := by
  have hne : n ≠ 0xFFFF := by
    rintro rfl
    exact absurd h (by decide)
  rw [succId, if_neg hne, BitVec.toNat_add_of_lt (by simpa using Nat.succ_lt_succ h)]
  rfl

theorem succId_toNat_of_eq {n : Word16} (h : n.toNat = 65535) : (succId n).toNat = 1 := by
  obtain rfl : n = 0xFFFF := BitVec.eq_of_toNat_eq h
  rfl

/-- Settles O33: by the two cases of the successor. -/
theorem successorSkipsZero : Obligations.SuccessorSkipsZero := fun n =>
  ⟨succId_ne_zero n, succId_ne_self n, succId_toNat_of_lt, succId_toNat_of_eq⟩

/-! ### The operations (R150 to R157, R167, R168) -/

/-- Settles O34: a ready `cb_init` is its update of the state. -/
theorem bufferInit : Obligations.BufferInit := fun _ hr => whenReady_of_ready hr _

/-- Settles O35: a full buffer drops its oldest command for the new one, and one with room appends it. -/
theorem bufferEnqueue : Obligations.BufferEnqueue := by
  intro s m hr
  have hexec : exec (.cbEnqueue m) s = .next ((s.enqueue m).answer (.flag s.isFull)) :=
    whenReady_of_ready hr _
  obtain ⟨hfull, heq⟩ | ⟨hroom, heq⟩ := enqueue_cases m s <;> rw [hexec, heq, State.isFull]
  · rw [decide_eq_true hfull]
    exact ⟨fun hroom => absurd hfull hroom, fun _ => rfl⟩
  · rw [decide_eq_false hroom]
    exact ⟨fun _ => rfl, fun hfull => absurd hfull hroom⟩

/-- Settles O36: both instructions are the dequeue, which finds the buffer empty or takes its oldest command. -/
theorem dequeueReturnsOldest : Obligations.DequeueReturnsOldest := by
  intro s i hr hi
  have hexec : exec i s = dequeue s := by
    simp only [List.mem_cons, List.not_mem_nil, or_false] at hi
    obtain rfl | rfl := hi <;> exact whenReady_of_ready hr _
  rw [hexec]
  exact ⟨fun hc => dequeue_next.mpr (.inl ⟨hc, rfl⟩),
    fun hc hh => dequeue_next.mpr (.inr ⟨hc, hh, rfl⟩)⟩

/-- A command waits where the count is above 0 (R167). -/
theorem hasPending_eq (s : State) : s.hasPending = decide (0 < s.count) := by
  simp [State.hasPending, State.isEmpty, Nat.pos_iff_ne_zero]

/-- Settles O37: each ready query answers its function of the count. -/
theorem queriesAnswerCount : Obligations.QueriesAnswerCount := by
  intro s hr
  rw [← hasPending_eq]
  exact ⟨whenReady_of_ready hr _, whenReady_of_ready hr _, whenReady_of_ready hr _, whenReady_of_ready hr _⟩

/-! ### A run of enqueues (R152, R159) -/

/-- What the buffer must satisfy to be a bounded queue (R31). -/
structure State.QueueOk (s : State) : Prop where
  cfgOk : s.cfg.ok = true
  headLt : s.head < s.cfg.cmdCapacity
  countLe : s.count ≤ s.cfg.cmdCapacity
  ringWf : Memory.wf blankCommand s.ring = true

/-- A command but for its id, which an enqueue stamps. -/
def unstamped (m : Command) : Command := { m with id := 0 }

theorem enqueue_cfg (m : Command) (s : State) : (s.enqueue m).cfg = s.cfg := by
  obtain ⟨-, heq⟩ | ⟨-, heq⟩ := enqueue_cases m s <;> rw [heq] <;> rfl

theorem queueOk_enqueue {s : State} (h : s.QueueOk) (m : Command) : (s.enqueue m).QueueOk := by
  obtain ⟨hok, hhead, hcount, hwf⟩ := h
  have hwf' : ∀ a v, Memory.wf blankCommand (Memory.write blankCommand s.ring a v) = true :=
    Memory.wf_write hwf
  obtain ⟨hfull, heq⟩ | ⟨hroom, heq⟩ := enqueue_cases m s <;> rw [heq]
  · have hcap : 0 < s.cfg.cmdCapacity := Nat.zero_lt_of_lt hhead
    have hle : s.count - 1 + 1 ≤ s.cfg.cmdCapacity := by omega
    exact ⟨hok, Nat.mod_lt _ hcap, hle, hwf' _ _⟩
  · exact ⟨hok, hhead, lt_of_le_of_ne hcount hroom, hwf' _ _⟩

theorem length_queue (s : State) : s.queue.length = s.count := by
  simp [State.queue]

/-- An enqueue leaves the last `CMD_CAPACITY` commands of the queue with the new one behind it. -/
theorem queue_enqueue {s : State} (h : s.QueueOk) (m : Command) :
    (s.enqueue m).queue = (s.queue ++ [{ m with id := succId s.newestId }]).rtake s.cfg.cmdCapacity := by
  obtain ⟨hok, hhead, hcount, hwf⟩ := h
  rw [(bufferIsBoundedFifo s m hok hhead hcount hwf).1, List.rtake, List.length_append, length_queue]
  split
  case isTrue hfull =>
    have hne : 1 ≤ s.queue.length := by rw [length_queue]; omega
    rw [hfull, List.length_singleton, Nat.add_sub_cancel_left, List.drop_append_of_le_length hne,
      List.drop_one]
  case isFalse hroom =>
    have hfits : s.count + 1 - s.cfg.cmdCapacity = 0 := by omega
    rw [List.length_singleton, hfits, List.drop_zero]

/-- Cutting a list to its last `n` before more is put behind it loses none of the last `n` of both. -/
theorem rtake_rtake_append {α : Type} (n : Nat) (xs ys : List α) :
    (xs.rtake n ++ ys).rtake n = (xs ++ ys).rtake n := by
  simp [List.rtake_eq_reverse_take_reverse, List.take_append, List.take_take]

/-- A run of enqueues leaves the last `CMD_CAPACITY` commands of the queue with the new ones behind it, ids apart. -/
theorem queue_foldl_enqueue {s : State} (h : s.QueueOk) (ms : List Command) :
    ((ms.foldl (fun u x => u.enqueue x) s).queue).map unstamped =
      ((s.queue ++ ms).map unstamped).rtake s.cfg.cmdCapacity := by
  induction ms generalizing s with
  | nil =>
    have hfits : s.queue.length - s.cfg.cmdCapacity = 0 := by
      rw [length_queue]
      exact Nat.sub_eq_zero_of_le h.countLe
    simp [List.rtake, hfits]
  | cons m ms ih =>
    have hstamp : ((s.enqueue m).queue).map unstamped =
        ((s.queue ++ [m]).map unstamped).rtake s.cfg.cmdCapacity := by
      rw [queue_enqueue h]
      simp [List.rtake, List.map_drop, unstamped]
    rw [List.foldl_cons, ih (queueOk_enqueue h m), enqueue_cfg, List.map_append, hstamp,
      rtake_rtake_append, ← List.map_append, List.append_assoc, List.singleton_append]

/-- Settles O39: of the eleven commands behind the empty queue the last ten are left. -/
theorem eleventhEnqueueEvictsFirst : Obligations.EleventhEnqueueEvictsFirst := by
  intro s m ms hok hcap hhead hcount hwf hlen
  have hqueue : s.queue = [] := List.length_eq_zero_iff.mp ((length_queue s).trans hcount)
  have hs : s.QueueOk := ⟨hok, by rwa [hcap], by simp [hcount], hwf⟩
  have hlast : (((m :: ms).foldl (fun u x => u.enqueue x) s).queue).map unstamped = ms.map unstamped := by
    rw [queue_foldl_enqueue hs, hqueue, hcap]
    simp [List.rtake, hlen]
  refine ⟨_, rfl, ?_, hlast⟩
  rw [← length_queue, ← hlen]
  simpa using congrArg List.length hlast

end Sys2Proof.Machine
end

section
/-!
SUPPORT. The session operations (spec 43 R165 to R174): what reset and `init_session` leave, the statistics, the
telemetry that is sent if it fits, and the two styles of ingestion.
-/

namespace Sys2Proof.Machine

/-! ### A received byte and the events to come (R106, R174) -/

/-- A completed frame passes the events to come through (R103). -/
theorem finishFrame_inbox (r : Payload) (s : State) (l : List Request) :
    finishFrame r { s with inbox := l } = { finishFrame r s with inbox := l } := by
  cases r with
  | ok m =>
    have hfull : State.isFull { s.settle with inbox := l } = s.settle.isFull := rfl
    change frameAccept m { s.settle with inbox := l } = { frameAccept m s.settle with inbox := l }
    simp only [frameAccept, State.enqueue, hfull]
    split <;> rfl
  | unrecognizedCommand | invalidParams => rfl

/-- A received byte passes them through (R106). -/
theorem rxByte_inbox {b : Byte} {s t : State} (h : rxByte b s = .next t) (l : List Request) :
    rxByte b { s with inbox := l } = .next { t with inbox := l } := by
  have hmem := rxRow_mem s b
  have hrow : State.rxRow { s with inbox := l } b = s.rxRow b := rfl
  rw [← exec_rxRow] at h ⊢
  rw [hrow]
  generalize s.rxRow b = i at hmem h ⊢
  simp only [rxRows, List.mem_cons, List.not_mem_nil, or_false] at hmem
  obtain rfl | rfl | rfl | rfl | rfl | rfl := hmem
  case inr.inr.inr.inl =>
    obtain ⟨hr, hsel, hi, u, rfl, rfl⟩ := execRxEnd_next.mp h
    exact execRxEnd_next.mpr ⟨hr, hsel, hi, _, rfl, (finishFrame_inbox _ _ l).symm⟩
  all_goals
    obtain ⟨hr, hnext⟩ := whenReady_next.mp h
    obtain ⟨hsel, ⟨⟩⟩ := selected_next.mp hnext
    exact whenReady_next.mpr ⟨hr, selected_next.mpr ⟨hsel, rfl⟩⟩

/-- The first byte of a sequence that completes leaves the state from which the others do. -/
theorem rxBytes_cons_next {b : Byte} {bytes : Text} {n : Nat} {s t : State}
    (h : (rxBytes (b :: bytes) n s).1 = .next t) :
    ∃ u m, rxByte b s = .next u ∧ (rxBytes bytes m u).1 = .next t := by
  rw [rxBytes] at h
  split at h
  case h_1 u hu => exact ⟨u, _, hu, h⟩
  all_goals cases h

theorem run_succ_of_next {M : Host.Core} {k : Nat} {s u : M.State} (h : M.step s = .next u) :
    M.run (k + 1) s = M.run k u := by
  rw [Host.Core.run, h]

/-- One step for each byte of a sequence that completes leaves what the sequence leaves (R174). -/
theorem run_of_rxBytes {bytes : Text} {n : Nat} {s t : State} (hs : s.Inv)
    (h : (rxBytes bytes n s).1 = .next t) :
    Sys2Proof.core.run bytes.length { s with inbox := bytes.map .rxByte } = .next { t with inbox := [] } := by
  induction bytes generalizing s n with
  | nil =>
    obtain ⟨⟩ := h
    rfl
  | cons b bytes ih =>
    obtain ⟨u, m, hu, hrest⟩ := rxBytes_cons_next h
    have hwait : State.frameWaiting { s with inbox := .rxByte b :: bytes.map .rxByte } = false :=
      frameWaiting_of_inv (s := s) hs
    have hstep : step { s with inbox := .rxByte b :: bytes.map .rxByte } =
        .next { u with inbox := bytes.map .rxByte } :=
      (step_of_rxByte hwait rfl).trans (rxByte_inbox hu _)
    exact (run_succ_of_next (M := Sys2Proof.core) hstep).trans (ih (inv_rxByte hs hu) hrest)

/-- Settles O45: the drain puts the bytes through `RxByte`, and so does one step for each of them. -/
theorem pollingEqualsInterrupts : Obligations.PollingEqualsInterrupts := by
  intro s bytes hr hs hsource hinbox
  have hpending : State.Inv { s with source := bytes } := inv_congr hs rfl rfl rfl rfl rfl rfl rfl rfl
  obtain ⟨t, new, hdrain, -, hout, hexec⟩ := pollingDrainsTheSource { s with source := bytes } hr hpending
  have hdrain : (rxBytes bytes 0 s).1 = .next t := by
    have hsame : { s with source := [] } = s := by rw [← hsource]
    rw [← hsame]
    exact hdrain
  have hempty : t.inbox = [] := (sameSetup_of_rxBytes hdrain).inbox.trans hinbox
  refine ⟨t, new, ?_, hout, hexec⟩
  rw [run_of_rxBytes hs hdrain, ← hempty]

/-! ### Reset and `init_session` (R165, R231) -/

/-- Settles O40: before the initialisation no frame waits, so the first event is decoded and runs; `init_session`
is its update of the state. -/
theorem initSessionResets : Obligations.InitSessionResets :=
  ⟨fun _ _ hinit hinbox => step_of_decode (frameWaiting_eq_false.mpr (.inl hinit)) hinbox rfl rfl,
    fun _ hok => configured_next.mpr ⟨hok, rfl⟩⟩

theorem storageOk_reset : State.reset.StorageOk where
  cfgOk := by decide
  headLt := by decide
  countLe := by decide
  rxBufWf := rfl
  rxBufBelow := rfl
  ringWf := rfl
  ringBelow := rfl
  newestIs := nofun
  idsSet := nofun
  paramsLe := nofun
  idsConsecutive := nofun

/-- Settles O56: both memories and the queue are empty, and the assembler waits. -/
theorem resetIsCleanStart : Obligations.ResetIsCleanStart :=
  ⟨inv_iff.mpr ⟨storageOk_reset, assemblerOk_of_settled rfl rfl⟩,
    rfl, rfl, rfl, rfl, rfl, rfl, rfl, rfl, rfl, rfl⟩

/-! ### Statistics (R171, R172) -/

/-- Settles O41: a ready `get_statistics` is its answer, and a ready `reset_statistics` its update of the state. -/
theorem statisticsReadAndClear : Obligations.StatisticsReadAndClear := fun _ hr =>
  ⟨whenReady_of_ready hr _, whenReady_of_ready hr _⟩

/-! ### Telemetry (R170, R189, R190) -/

/-- The transmit buffer holds the smallest destination of the telemetry encoder (R7). -/
theorem telEncMin_le_txBufSize {c : Config} (h : c.ok = true) : c.telEncMin ≤ c.txBufSize := by
  simp only [Config.ok, Bool.and_eq_true, decide_eq_true_eq] at h
  obtain ⟨⟨-, hmax⟩, -⟩ := h
  exact (le_max_left _ _).trans hmax

theorem fmtFixed_of_finite {c : Config} {v : F64} {d : Nat} (h : f64IsFinite v = true) :
    fmtFixed c v d = some ((fmtFixed c v d).getD []) := by
  obtain ⟨t, ht⟩ := Option.isSome_iff_exists.mp (fmtFixed_isSome.trans h)
  rw [ht, Option.getD_some]

/-- From its minimum on the encoder's text for a finite sample is the frame, if it and a NUL fit (R189). -/
theorem encodeTelemetryText_of_finite {c : Config} {m : Sample} {size : Nat} (hm : sampleFinite m = true)
    (hsize : c.telEncMin ≤ size) : encodeTelemetryText c m size = fitted (telemetryFrame c m) size := by
  simp only [sampleFinite, Bool.and_eq_true] at hm
  obtain ⟨⟨⟨hbattery, hleft⟩, hright⟩, htemp⟩ := hm
  rw [encodeTelemetryText, if_neg hsize.not_gt, telemetryFields, fmtFixed_of_finite hbattery,
    fmtFixed_of_finite hleft, fmtFixed_of_finite hright, fmtFixed_of_finite htemp]
  simp [telemetryFrame]

/-- Settles O43: both instructions are the send of the frame, which fits or does not. -/
theorem telemetryIsSentIfItFits : Obligations.TelemetryIsSentIfItFits := by
  intro s m i hr hm hi
  have hexec : exec i s = sendTelemetry m s := by
    simp only [List.mem_cons, List.not_mem_nil, or_false] at hi
    obtain rfl | rfl := hi <;> exact whenReady_of_ready hr _
  have htext := encodeTelemetryText_of_finite hm (telEncMin_le_txBufSize (ready_iff.mp hr).1)
  rw [hexec]
  rw [fitted] at htext
  refine ⟨fun hfits => ?_, fun hlong => ?_⟩
  · rw [if_neg hfits.not_gt] at htext
    exact sendTelemetry_next.mpr (.inl ⟨_, htext, by simp [State.answer, State.transmit]⟩)
  · rw [if_pos hlong] at htext
    exact sendTelemetry_next.mpr (.inr ⟨htext, rfl⟩)

end Sys2Proof.Machine
end

section
/-!
SUPPORT. The text encoders and the response parser (spec 44 R185 to R194): the decimal and the fixed-point text of a
number, what each encoder answers, and what a response text parses as.
-/

namespace Sys2Proof.Machine

/-! ### The decimal text of a number (R194) -/

/-- With fuel enough `decDigits` writes the number's digits, the most significant first. -/
theorem decDigits_eq_digits {fuel n : ℕ} (hn : n ≠ 0) (h : n < 10 ^ fuel) (acc : Text) :
    decDigits fuel n acc = (Nat.digits 10 n).reverse.map digitByte ++ acc := by
  induction fuel generalizing n acc with
  | zero => exact absurd (Nat.lt_one_iff.mp (by simpa using h)) hn
  | succ fuel ih =>
    by_cases hlt : n < 10
    · rw [decDigits, if_pos hlt, Nat.digits_of_lt 10 n hn hlt]
      rfl
    · have hdiv : n / 10 < 10 ^ fuel := by rwa [Nat.div_lt_iff_lt_mul (by norm_num), ← pow_succ]
      rw [decDigits, if_neg hlt, ih (by omega) hdiv, Nat.digits_eq_cons_digits_div (by norm_num) hn]
      simp

theorem natText_zero : natText 0 = [0x30] := by decide

theorem natText_of_ne_zero {n : ℕ} (hn : n ≠ 0) : natText n = (Nat.digits 10 n).reverse.map digitByte := by
  have hfuel : n < 10 ^ (n.log2 + 1) :=
    Nat.lt_log2_self.trans_le (Nat.pow_le_pow_left (by norm_num) _)
  rw [natText, decDigits_eq_digits hn hfuel, List.append_nil]

theorem digitByte_eq_zero {n : ℕ} (hn : n < 10) (h : digitByte n = 0x30) : n = 0 := by
  have hvalue := digitVal_digitByte hn
  rw [h] at hvalue
  exact (Option.some.inj hvalue).symm

/-- The first digit of a number other than 0 is its most significant one, which is not 0. -/
theorem eq_zero_of_natText_head {n : ℕ} (h : (natText n).head? = some 0x30) : n = 0 := by
  by_contra hn
  have hne : Nat.digits 10 n ≠ [] := Nat.digits_ne_nil_iff_ne_zero.mpr hn
  rw [natText_of_ne_zero hn, List.head?_map, List.head?_reverse, List.getLast?_eq_getLast_of_ne_nil hne] at h
  exact Nat.getLast_digit_ne_zero 10 hn
    (digitByte_eq_zero (Nat.digits_lt_base (by norm_num) (List.getLast_mem hne)) (Option.some.inj h))

theorem natText_eq_of_head {n : ℕ} (h : (natText n).head? = some 0x30) : natText n = [0x30] := by
  rw [eq_zero_of_natText_head h, natText_zero]

/-- The text of a number below `10 ^ k` has at most `k` digits. -/
theorem natText_length_le {n k : ℕ} (hk : 0 < k) (h : n < 10 ^ k) : (natText n).length ≤ k := by
  by_cases hn : n = 0
  · rwa [hn, natText_zero]
  · rw [natText_of_ne_zero hn, List.length_map, List.length_reverse]
    exact (Nat.digits_length_le_iff (by norm_num) n).mpr h

/-- Settles O31: the text is the digits of the number, without a leading zero, and a 32-bit number is below
`10 ^ 10`. -/
theorem uintTextReadsBack : Obligations.UintTextReadsBack := by
  refine ⟨fun n => ?_, fun n => ⟨?_, fun h => ⟨eq_zero_of_natText_head h, natText_eq_of_head h⟩⟩⟩
  · have htext := isDecimal_natText n.toNat
    refine ⟨htext.allDigits, htext.value, List.length_pos_iff.mpr htext.ne_nil,
      natText_length_le (by norm_num) (n.isLt.trans (by norm_num)), natText_eq_of_head, ?_⟩
    rintro rfl
    exact natText_zero
  · have htext := isDecimal_natText n
    have hread := scanDigits_append htext.allDigits noDigit_nil 0 0
    rwa [List.append_nil, Nat.zero_add, ← digitsValue, htext.value] at hread

/-! ### The fixed-point text of a value (R193) -/

/-- Rounding answers the quotient, or its successor where there is a remainder. -/
theorem roundHalfEven_cases {num den : ℕ} (hd : 0 < den) :
    roundHalfEven num den = num / den ∨ (roundHalfEven num den = num / den + 1 ∧ num % den ≠ 0) := by
  unfold roundHalfEven
  dsimp only
  split_ifs <;> omega

/-- In every build `FMT_FIXED` prints one of the two multiples next to the value, or the value itself. -/
theorem fixedMultiple_cases (c : Config) (v : F64) (d : ℕ) :
    fixedMultiple c v d = (scaledExact (f64Mag v) d).1 / (scaledExact (f64Mag v) d).2 ∨
      (fixedMultiple c v d = (scaledExact (f64Mag v) d).1 / (scaledExact (f64Mag v) d).2 + 1 ∧
        (scaledExact (f64Mag v) d).1 % (scaledExact (f64Mag v) d).2 ≠ 0) := by
  have hround := roundHalfEven_cases (num := (scaledExact (f64Mag v) d).1) (den := (scaledExact (f64Mag v) d).2)
    (pow_pos (by norm_num) _)
  unfold fixedMultiple
  dsimp only
  split_ifs with hother
  · omega
  · exact hround

/-- Such a multiple is less than one away. -/
theorem abs_sub_div_lt_one {num den n : ℕ} (hd : 0 < den)
    (h : n = num / den ∨ (n = num / den + 1 ∧ num % den ≠ 0)) : |(n : ℚ) - num / den| < 1 := by
  have hdQ : (0 : ℚ) < den := Nat.cast_pos.mpr hd
  have hbounds : num < (n + 1) * den ∧ n * den < num + den := by
    have hdiv := Nat.div_add_mod num den
    have hmod := Nat.mod_lt num hd
    generalize num / den = q at h hdiv
    generalize num % den = r at h hdiv hmod
    obtain rfl | ⟨rfl, hrest⟩ := h
    · constructor <;> linarith
    · have hpos := Nat.pos_of_ne_zero hrest
      constructor <;> linarith
  obtain ⟨hlow, hhigh⟩ := hbounds
  have hlowQ : (num : ℚ) < (n + 1) * den := by exact_mod_cast hlow
  have hhighQ : (n * den : ℚ) < num + den := by exact_mod_cast hhigh
  rw [abs_lt, neg_lt_sub_iff_lt_add, sub_lt_iff_lt_add, div_lt_iff₀ hdQ, ← sub_lt_iff_lt_add', lt_div_iff₀ hdQ]
  constructor <;> linarith

theorem abs_fixedMultiple_lt (c : Config) (v : F64) (d : ℕ) :
    |(fixedMultiple c v d : ℚ) - magValue (f64Mag v) * 10 ^ d| < 1 := by
  rw [← scaledExact_div]
  exact abs_sub_div_lt_one (pow_pos (by norm_num) _) (fixedMultiple_cases c v d)

/-- Of two natural numbers one half away the even one is the nearest. -/
theorem IsNearest.even_of_abs_eq_half {y : ℚ} {n : ℕ} (h : IsNearest natGrid y n) (htie : |n - y| = 1 / 2) :
    n % 2 = 0 := by
  obtain hbelow | habove := (abs_eq (by norm_num)).mp htie
  · cases n with
    | zero => rfl
    | succ k =>
      obtain hlt | ⟨-, heven⟩ := h.below k rfl
      · simp only [natGrid] at hlt
        push_cast at hlt hbelow
        linarith
      · exact heven
  · obtain hlt | ⟨-, heven⟩ := h.above
    · simp only [natGrid] at hlt
      push_cast at hlt
      linarith
    · exact heven

theorem abs_f64Value (v : F64) : |f64Value v| = magValue (f64Mag v) := by
  rw [f64Value_eq, abs_signFactor_mul, abs_of_nonneg (magValue_nonneg _)]

/-- The fixed-point text of a finite value, with its minus sign. -/
theorem fmtFixed_eq_of_finite {c : Config} {v : F64} {d : ℕ} (h : f64IsFinite v = true) :
    fmtFixed c v d = some ((if f64Neg v then [0x2D] else []) ++
      (natText (fixedMultiple c v d / 10 ^ d) ++ 0x2E :: fracText d (fixedMultiple c v d))) := by
  rw [fmtFixed, if_pos h]
  cases f64Neg v <;> rfl

theorem digitsValue_fracText (d n : ℕ) : digitsValue (fracText d n) = n % 10 ^ d := by
  rw [digitsValue, fracText_foldl, Nat.zero_mul, Nat.zero_add]

/-- Settles O30: the digits are those of the multiple that is printed, a neighbour of the value in every build and
the nearest one off the build's table. -/
theorem fixedTextIsNearest : Obligations.FixedTextIsNearest := by
  intro c v d hfin
  have hwhole := isDecimal_natText (fixedMultiple c v d / 10 ^ d)
  refine ⟨fixedMultiple c v d, _, _, fmtFixed_eq_of_finite hfin, hwhole.allDigits, hwhole.value, hwhole.ne_nil,
    natText_eq_of_head, fracText_allDigits d _, digitsValue_fracText d _, fracText_length d _, ?_⟩
  rw [abs_f64Value]
  refine ⟨abs_fixedMultiple_lt c v d, fun hdefault => ?_⟩
  have hnearest := isNearest_fixedMultiple hdefault
  have hnonneg : 0 ≤ magValue (f64Mag v) * 10 ^ d := mul_nonneg (magValue_nonneg _) (by positivity)
  exact ⟨hnearest.abs_natGrid_le hnonneg, hnearest.even_of_abs_eq_half⟩

/-! ### The encoders (R187, R189) -/

/-- Finite parameters are printed, with a separator between each and the next. -/
theorem paramsText_of_finite {c : Config} {vs : List F64} (h : ∀ v ∈ vs, f64IsFinite v = true) :
    paramsText c vs =
      some (List.intercalate [c.sepParam] (vs.map fun v => (fmtFixed c v 1).getD [])) := by
  induction vs with
  | nil => rfl
  | cons v vs ih =>
    obtain ⟨hv, hvs⟩ := List.forall_mem_cons.mp h
    have hts := ih hvs
    rw [paramsText, fmtFixed_of_finite hv]
    cases vs with
    | nil => simp
    | cons w ws =>
      rw [hts]
      simp

/-- Only finite parameters are. -/
theorem finite_of_paramsText {c : Config} {vs : List F64} {ps : Text} (h : paramsText c vs = some ps) :
    ∀ v ∈ vs, f64IsFinite v = true := by
  induction vs generalizing ps with
  | nil => exact nofun
  | cons v vs ih =>
    obtain ⟨t, ht, hrest⟩ := paramsText_cons h
    refine List.forall_mem_cons.mpr ⟨(fmtFixed_eq_some ht).1, ?_⟩
    obtain ⟨rfl, -⟩ | ⟨ts, -, hts, -⟩ := hrest
    · exact nofun
    · exact ih hts

theorem paramsText_of_not_finite {c : Config} {vs : List F64} (h : ∃ v ∈ vs, f64IsFinite v = false) :
    paramsText c vs = none := by
  obtain ⟨v, hmem, hv⟩ := h
  refine Option.eq_none_iff_forall_ne_some.mpr fun ps hps => ?_
  rw [finite_of_paramsText hps v hmem] at hv
  cases hv

theorem letters_eq_none {code : Code} : letters code = none ↔ code = .unknown := by
  cases code <;> simp [letters]

/-- Below the minimum, and for the code `unknown`, the encoder looks at nothing else (R187). -/
theorem encodeCommandText_noOutput {c : Config} {m : Command} {size : ℕ}
    (h : size < c.cmdEncMin ∨ m.code = .unknown) : encodeCommandText c m size = .noOutput := by
  by_cases hsize : size < c.cmdEncMin
  · exact if_pos hsize
  · rw [encodeCommandText, if_neg hsize, letters_eq_none.mpr (h.resolve_left hsize)]

/-- From its minimum on the encoder's text for finite parameters is the frame, if it and a NUL fit (R187). -/
theorem encodeCommandText_of_finite {c : Config} {m : Command} {size : ℕ} {code : Text}
    (hm : ∀ v ∈ m.params, f64IsFinite v = true) (hcode : letters m.code = some code) (hsize : c.cmdEncMin ≤ size) :
    encodeCommandText c m size = fitted (commandFrame c code m.params) size := by
  have hparams := paramsText_of_finite (c := c) hm
  rw [encodeCommandText, if_neg hsize.not_gt, hcode]
  match hvs : m.params with
  | [] => simp [commandFrame]
  | v :: vs =>
    rw [hvs] at hparams
    dsimp only
    rw [hparams]
    simp [commandFrame]

theorem encodeCommandText_of_not_finite {c : Config} {m : Command} {size : ℕ} (hsize : c.cmdEncMin ≤ size)
    (hcode : m.code ≠ .unknown) (hm : ∃ v ∈ m.params, f64IsFinite v = false) :
    encodeCommandText c m size = .nonFinite := by
  obtain ⟨code, hletters⟩ := Option.ne_none_iff_exists'.mp (letters_eq_none.not.mpr hcode)
  have hparams := paramsText_of_not_finite (c := c) hm
  rw [encodeCommandText, if_neg hsize.not_gt, hletters]
  match hvs : m.params with
  | [] => simp [hvs] at hm
  | v :: vs =>
    rw [hvs] at hparams
    dsimp only
    rw [hparams]

theorem encodeTelemetryText_noOutput {c : Config} {m : Sample} {size : ℕ} (h : size < c.telEncMin) :
    encodeTelemetryText c m size = .noOutput := if_pos h

theorem telemetryFields_of_not_finite {c : Config} {m : Sample} (h : sampleFinite m = false) :
    telemetryFields c m = none := by
  unfold telemetryFields
  split
  case h_1 hbattery hleft hright htemp =>
    simp [sampleFinite, (fmtFixed_eq_some hbattery).1, (fmtFixed_eq_some hleft).1, (fmtFixed_eq_some hright).1,
      (fmtFixed_eq_some htemp).1] at h
  case h_2 => rfl

theorem encodeTelemetryText_of_not_finite {c : Config} {m : Sample} {size : ℕ} (hsize : c.telEncMin ≤ size)
    (hm : sampleFinite m = false) : encodeTelemetryText c m size = .nonFinite := by
  rw [encodeTelemetryText, if_neg hsize.not_gt, telemetryFields_of_not_finite hm]

/-- An encoder that has no output below its minimum, and from there on the text if it and a NUL fit, answers the
text from the minimum on if they fit, and nothing wherever they do not (R206). -/
theorem answerText_of_fitted {e : Encoded} {t : Text} {min size : ℕ} (hsmall : size < min → e = .noOutput)
    (hfit : min ≤ size → e = fitted t size) (s : State) :
    (min ≤ size → t.length + 1 ≤ size → answerText e s = .next (s.answer (.text (some t)))) ∧
      (size < t.length + 1 → answerText e s = .next (s.answer (.text none))) := by
  refine ⟨fun hmin hroom => ?_, fun hlong => ?_⟩
  · rw [hfit hmin, fitted, if_neg hroom.not_gt]
    rfl
  · have hnone : e = .noOutput := (lt_or_ge size min).elim hsmall fun hmin => by rw [hfit hmin, fitted, if_pos hlong]
    rw [hnone]
    rfl

theorem exec_encodeCommand_of_ready {s : State} (hr : s.ready = true) (m : Command) (size : ℕ) :
    exec (.encodeCommand m size) s = answerText (encodeCommandText s.cfg m size) s :=
  whenReady_of_ready hr _

theorem exec_encodeTelemetry_of_ready {s : State} (hr : s.ready = true) (m : Sample) (size : ℕ) :
    exec (.encodeTelemetry m size) s = answerText (encodeTelemetryText s.cfg m size) s :=
  whenReady_of_ready hr _

/-- Settles O47: without an output the answer is none; the text of finite parameters is answered if it fits. -/
theorem encodeCommandAnswers : Obligations.EncodeCommandAnswers := by
  intro s m size hr
  rw [exec_encodeCommand_of_ready hr]
  refine ⟨fun hnone => ?_, fun hm code hcode => ?_⟩
  · rw [encodeCommandText_noOutput hnone]
    rfl
  · exact answerText_of_fitted (fun hsize => encodeCommandText_noOutput (.inl hsize))
      (encodeCommandText_of_finite hm hcode) s

/-- Settles O48: below the minimum the answer is none; the text of a finite sample is answered if it fits. -/
theorem encodeTelemetryAnswers : Obligations.EncodeTelemetryAnswers := by
  intro s m size hr
  rw [exec_encodeTelemetry_of_ready hr]
  refine ⟨fun hsize => ?_, fun hm => ?_⟩
  · rw [encodeTelemetryText_noOutput hsize]
    rfl
  · exact answerText_of_fitted encodeTelemetryText_noOutput (encodeTelemetryText_of_finite hm) s

/-- The transmit buffer is large enough for the encoder to look at the sample (R7), so the send is refused. -/
theorem sendTelemetry_of_not_finite {s : State} {m : Sample} (hc : s.cfg.ok = true) (hm : sampleFinite m = false) :
    sendTelemetry m s = .refused .nonFiniteText := by
  rw [sendTelemetry, sendSample, encodeTelemetryText_of_not_finite (telEncMin_le_txBufSize hc) hm]
  rfl

/-- Settles O49: where the encoder reaches the values, one that is not finite leaves no text to answer or send. -/
theorem nonFiniteTextIsRefused : Obligations.NonFiniteTextIsRefused := by
  intro s hr
  refine ⟨fun m size hsize hcode hm => ?_, fun m size hm => ⟨fun hsize => ?_, ?_⟩⟩
  · rw [exec_encodeCommand_of_ready hr, encodeCommandText_of_not_finite hsize hcode hm]
    rfl
  · rw [exec_encodeTelemetry_of_ready hr, encodeTelemetryText_of_not_finite hsize hm]
    rfl
  · have hsend := sendTelemetry_of_not_finite (ready_iff.mp hr).1 hm
    exact ⟨(whenReady_of_ready hr _).trans hsend, (whenReady_of_ready hr _).trans hsend⟩

/-! ### Responses (R185, R191) -/

/-- Settles O50: a ready `encode_response` is its frame, and a ready `parse_response` what the text parses as. -/
theorem responseCodecAnswers : Obligations.ResponseCodecAnswers := fun _ _ _ hr =>
  ⟨whenReady_of_ready hr _, whenReady_of_ready hr _⟩

theorem startsWith_iff {t s : Text} : startsWith t s = true ↔ t <+: s := by
  induction t generalizing s with
  | nil => simp [startsWith]
  | cons a t ih =>
    cases s with
    | nil => simp [startsWith]
    | cons b s => simp [startsWith, ih, List.cons_prefix_cons]

/-- No token begins another. -/
theorem startsWith_token (k k' : Kind) (rest : Text) :
    startsWith (token k) (token k' ++ rest) = decide (k = k') := by
  cases k <;> cases k' <;> simp [token, startsWith]

theorem startsWith_token_telToken (k : Kind) (rest : Text) : startsWith (token k) (telToken ++ rest) = false := by
  cases k <;> simp [token, telToken, startsWith]

section
variable {c : Config} {text rest : Text}

theorem parseResponseText_of_token {k : Kind} (h : skipStart c (skipWs c text) = token k ++ rest) :
    parseResponseText c text = .response k := by
  simp only [parseResponseText, h, startsWith_token, decide_eq_true_eq]
  cases k <;> rfl

theorem parseResponseText_of_telToken (h : skipStart c (skipWs c text) = telToken ++ rest) :
    parseResponseText c text = .telemetry := by
  have htel : startsWith telToken (telToken ++ rest) = true := startsWith_iff.mpr (List.prefix_append _ _)
  simp only [parseResponseText, h, startsWith_token_telToken, htel, Bool.false_eq_true, if_false, if_true]

theorem parseResponseText_of_no_token (htel : startsWith telToken (skipStart c (skipWs c text)) = false)
    (hk : ∀ k, startsWith (token k) (skipStart c (skipWs c text)) = false) :
    parseResponseText c text = .response .nack := by
  simp only [parseResponseText, htel, hk, Bool.false_eq_true, if_false]

/-- `OK` is answered to a text with its token alone. -/
theorem startsWith_of_parseResponseText_ok (h : parseResponseText c text = .response .ok) :
    startsWith (token .ok) (skipStart c (skipWs c text)) = true := by
  unfold parseResponseText at h
  by_contra hno
  rw [if_neg hno] at h
  split_ifs at h <;> cases h

end

/-- The start marker behind whitespace is skipped. -/
theorem skipStart_of_marker {c : Config} {pre : Text} (hpre : ∀ b ∈ pre, isWs c b = true)
    (hm : isWs c c.startMarker = false) (rest : Text) :
    skipStart c (skipWs c (pre ++ c.startMarker :: rest)) = rest := by
  rw [skipWs_white hpre hm, skipStart, if_pos rfl]

/-- Without one, only the whitespace is. -/
theorem skipStart_of_no_marker {c : Config} {pre word : Text} (hpre : ∀ b ∈ pre, isWs c b = true)
    (hword : ∀ b, word.head? = some b → isWs c b = false ∧ b ≠ c.startMarker) (hne : word ≠ []) (rest : Text) :
    skipStart c (skipWs c (pre ++ (word ++ rest))) = word ++ rest := by
  obtain ⟨b, word, rfl⟩ := List.exists_cons_of_ne_nil hne
  obtain ⟨hws, hb⟩ := hword b rfl
  rw [List.cons_append, skipWs_white hpre hws, skipStart, if_neg hb]

theorem token_ne_nil (k : Kind) : token k ≠ [] := by
  cases k <;> exact List.cons_ne_nil _ _

/-- Settles O51: what is skipped leaves the word in front, and no token begins another or `TEL:`. -/
theorem parsedTextGivesItsKind : Obligations.ParsedTextGivesItsKind := by
  refine ⟨fun c k pre post hm hpre => ?_, fun c pre marker word post hpre hmarker => ?_,
    fun _ _ htel hk => parseResponseText_of_no_token htel hk, fun c text hok => ?_⟩
  · have hskip := skipStart_of_marker hpre hm (token k ++ ([c.endMarker] ++ post))
    refine parseResponseText_of_token (rest := [c.endMarker] ++ post) ?_
    rw [← hskip]
    simp [responseFrame]
  · have hskip (hne : word ≠ []) : skipStart c (skipWs c (pre ++ marker ++ word ++ post)) = word ++ post := by
      simp only [List.append_assoc]
      obtain ⟨rfl, hm⟩ | ⟨rfl, hword⟩ := hmarker
      · exact skipStart_of_marker hpre hm _
      · exact skipStart_of_no_marker hpre hword hne post
    refine ⟨?_, ?_⟩
    · rintro k rfl
      exact parseResponseText_of_token (hskip (token_ne_nil k))
    · rintro rfl
      exact parseResponseText_of_telToken (hskip (List.cons_ne_nil _ _))
  · obtain ⟨rest, hrest⟩ := startsWith_iff.mp (startsWith_of_parseResponseText_ok hok)
    exact ⟨rest, hrest.symm⟩

end Sys2Proof.Machine
end

section
/-!
SUPPORT. Frames under the reference parameters, and the two spellings of `ST` on the wire (spec 70 R241).
-/

namespace Sys2Proof.Machine

/-- The newest command of the queue that an enqueue leaves is the stamped copy (R152, R153). -/
theorem getLast?_queue_enqueue {s : State} (h : s.QueueOk) (m : Command) :
    (s.enqueue m).queue.getLast? = some { m with id := succId s.newestId } := by
  obtain ⟨hfifo, -⟩ := bufferIsBoundedFifo s m h.cfgOk h.headLt h.countLe h.ringWf
  rw [hfifo, List.getLast?_concat]

/-- A completed frame with a command leaves the queue of its enqueue (R108). -/
theorem queue_finishFrame_ok (m : Command) (s : State) :
    (finishFrame (.ok m) s).queue = (s.settle.enqueue m).queue := by
  rw [finishFrame, frameAccept]
  split <;> rfl

/-- A whole frame between the reference markers does what its payload says (R75, R103). -/
theorem rxBytes_reference_frame {s : State} {p : Text} (hr : s.ready = true)
    (hwf : Memory.wf 0x00 s.rxBuf = true) (hcfg : s.cfg = Config.reference) (hlen : p.length ≤ 64)
    (hp : ∀ b ∈ p, b ≠ 0x53 ∧ b ≠ 0x45) :
    ∃ buf, (rxBytes (0x53 :: (p ++ [0x45])) 0 s).1 = .next
      { finishFrame (decodePayload Config.reference (untilNul p)) s.countReceived with rxBuf := buf } := by
  obtain ⟨buf, -, -, -, -, hframe⟩ :=
    frameOnTheWireRunsItsPayload s p hr hwf (by rwa [hcfg]) (by rwa [hcfg])
  rw [hcfg] at hframe
  exact ⟨buf, hframe⟩

/-- The payload `T` is too short for a code (R122). -/
theorem decodePayload_reference_t :
    decodePayload Config.reference (untilNul [0x54]) = .unrecognizedCommand :=
  decodePayload_eq_unrecognizedCommand.mpr rfl

/-- The payload `st` is the stop command: the letters match in either case (R81, R126). -/
theorem decodePayload_reference_st :
    decodePayload Config.reference (untilNul [0x73, 0x74]) = .ok ⟨0, .st, .stop, []⟩ := by
  have hsplit : splitPayload Config.reference (untilNul [0x73, 0x74]) = (.st, []) := rfl
  rw [decodePayload, hsplit, decodeBare]

/-- Settles O60: in `SSTE` the second `S` opens the frame again, so its payload is `T`; in `SstE` it is `st`. -/
theorem upperCaseStopIsNotReceived : Obligations.UpperCaseStopIsNotReceived := by
  intro s hinit hs hcfg
  have hr : s.ready = true := ready_iff.mpr ⟨hs.cfgOk, hinit⟩
  refine ⟨?_, ?_⟩
  · have hopen : rxByte 0x53 s = .next s.openFrame := by
      have hstart := rxByte_startMarker hr
      rwa [hcfg] at hstart
    obtain ⟨buf, hframe⟩ := rxBytes_reference_frame (s := s.openFrame) (p := [0x54]) hr hs.rxBufWf hcfg
      (by decide) (by simp)
    rw [decodePayload_reference_t] at hframe
    rw [rxBytes_cons_of_next _ 0 hopen rfl]
    exact ⟨_, hframe, rfl, rfl⟩
  · obtain ⟨buf, hframe⟩ := rxBytes_reference_frame (p := [0x73, 0x74]) hr hs.rxBufWf hcfg
      (by decide) (by simp)
    rw [decodePayload_reference_st] at hframe
    have hqueue : s.countReceived.settle.QueueOk := ⟨hs.cfgOk, hs.headLt, hs.countLe, hs.ringWf⟩
    refine ⟨_, hframe, ?_⟩
    calc (finishFrame (.ok ⟨0, .st, .stop, []⟩) s.countReceived).queue.getLast?
        = (s.countReceived.settle.enqueue ⟨0, .st, .stop, []⟩).queue.getLast? := by
          rw [queue_finishFrame_ok]
      _ = some ⟨succId s.newestId, .st, .stop, []⟩ := getLast?_queue_enqueue hqueue _

end Sys2Proof.Machine
end
